-- ==== Sys2Proof/Word.lean ====
section
/-! DEFINITION. The words of FBSYNC: a byte, an operation word, a frame.
`00_scope.md` R10: a byte is 8 bits, a frame is a sequence of bytes indexed from 0.
`30_encoding.md` R90: every operation word is exactly 8 bits. -/

namespace Sys2Proof

/-- A byte is 8 bits (R10). -/
abbrev Byte := BitVec 8

/-- An operation word is 8 bits (R90). -/
abbrev OpWord := BitVec 8

/-- A frame `f[0] .. f[FRAME_SIZE-1]` (R10); its length is a matter of well-formedness. -/
abbrev Frame := List Byte

end Sys2Proof
end

