-- ==== Sys2Proof/Config.lean ====
section
/-! DEFINITION. The implementation parameters of an instance (`00_scope.md` R5 to R9; the table of
`92_eei_decisions.md`), what they derive, and the values the spec leaves open. -/

namespace Sys2Proof

/-- The parameters of one instance, fixed before reset and never changed (R5 to R9). -/
structure Config where
  /-- `FRAME_SIZE` (R5): bytes in a frame. -/
  frameSize : Nat
  /-- `CAPACITY` (R6): slots in each ring. -/
  capacity : Nat
  /-- `ADDR_W` (R8): width of a byte address. -/
  addrW : Nat
  /-- `OUT_BASE` (R8): first byte of the outbound ring. -/
  outBase : Nat
  /-- `IN_BASE` (R8): first byte of the inbound ring. -/
  inBase : Nat
  /-- `ZERO_BASE` (R8): first byte of the all-zero frame. -/
  zeroBase : Nat
  /-- `SEL_ACTIVE_LEVEL` (R9): the electrical level that means asserted. -/
  selActiveLevel : Bool
  /-- `RXQ_DEPTH` (R9). -/
  rxqDepth : Nat
  /-- `TXQ_DEPTH` (R9). -/
  txqDepth : Nat
  /-- `SYNC_STAGES` (R9): no rule reads it. -/
  syncStages : Nat
deriving DecidableEq, Repr

/-- `clog2 n`, the least `k` with `2^k >= n` (R7). -/
def clog2 (n : Nat) : Nat :=
  ((List.range (n + 1)).find? (fun k => decide (n ≤ 2 ^ k))).getD n

/-- `IDX_W`, the width of a cursor (R7). -/
def Config.idxW (c : Config) : Nat := max 1 (clog2 c.capacity)

/-- `CNT_W`, the width of a stored count (R7). -/
def Config.cntW (c : Config) : Nat := clog2 (c.capacity + 1)

/-- `LEN_W`, the width of a transfer length (R7). -/
def Config.lenW (c : Config) : Nat := clog2 (c.frameSize + 1)

/-- Size in bytes of one ring's storage (R61). -/
def Config.ringBytes (c : Config) : Nat := c.capacity * c.frameSize

/-- `a` lies in the region `OUT` (R61). -/
def Config.inOut (c : Config) (a : Nat) : Bool :=
  decide (c.outBase ≤ a ∧ a < c.outBase + c.ringBytes)

/-- `a` lies in the region `IN` (R61). -/
def Config.inIn (c : Config) (a : Nat) : Bool :=
  decide (c.inBase ≤ a ∧ a < c.inBase + c.ringBytes)

/-- `a` lies in the region `ZERO` (R61). -/
def Config.inZero (c : Config) (a : Nat) : Bool :=
  decide (c.zeroBase ≤ a ∧ a < c.zeroBase + c.frameSize)

/-- The instance `State.reset` uses: the reference parameters of R5, R6 and of `95_test_vectors.md`;
the `OPEN` ones (`ADDR_W`, polarity, depths, stages) are a DESIGN CHOICE, unsafe, log entry 1. -/
def Config.reference : Config where
  frameSize := 128
  capacity := 32
  addrW := 16
  outBase := 0x0000
  inBase := 0x1000
  zeroBase := 0x2000
  selActiveLevel := true
  rxqDepth := 8
  txqDepth := 8
  syncStages := 0

/-- U5: what a byte of storage that nothing has written since reset reads as, by the number of resets
so far and the address. A free value (log entry 10, safe): nothing says what it is, only that it stays
the same until the byte is written. -/
opaque Config.unwrittenByte : Nat → Nat → Byte

/-- U7: the byte the master receives when the transmit queue is empty, a fresh draw each time
(`45_environment.md` R192). A free value (log entry 11, safe), by the number of draws so far. -/
opaque Config.underrunByte : Nat → Byte

end Sys2Proof
end

