-- ==== Sys2Proof/Syntax.lean ====
section
/-! DEFINITION. The operations of FBSYNC as syntax: one constructor per row of the opcode table
(`30_encoding.md` R93), their formats (R92) and their fixed expansions (R98). -/

namespace Sys2Proof

/-- The fifteen operations (R93). Only `SET_TRIG` has an operand in its word (R94, R95). -/
inductive Instr where
  | init
  | submit
  | receive
  | selAssert
  | selDeassert
  | xdAcquire
  | xdRelease
  | enqueue
  | dequeue
  | tryReserveOut
  | advanceIn
  | rearm
  | haltEngine
  | drainRxq
  /-- `t` is `arg[1]`, the new `TX_TRIG_EN`; `r` is `arg[0]`, the new `RX_TRIG_EN` (R94). -/
  | setTrig (t r : Bool)
deriving DecidableEq, Repr

/-- The three formats (R92). -/
inductive Format where
  | host
  | event
  | micro
deriving DecidableEq, Repr

/-- The format column of R93. -/
def Instr.format : Instr → Format
  | .init => .host
  | .submit => .host
  | .receive => .host
  | .selAssert => .event
  | .selDeassert => .event
  | .xdAcquire => .micro
  | .xdRelease => .micro
  | .enqueue => .micro
  | .dequeue => .micro
  | .tryReserveOut => .micro
  | .advanceIn => .micro
  | .rearm => .micro
  | .haltEngine => .micro
  | .drainRxq => .micro
  | .setTrig _ _ => .micro

/-- The mnemonic column of R93. -/
def Instr.mnemonic : Instr → String
  | .init => "INIT"
  | .submit => "SUBMIT"
  | .receive => "RECEIVE"
  | .selAssert => "SEL_ASSERT"
  | .selDeassert => "SEL_DEASSERT"
  | .xdAcquire => "XD_ACQUIRE"
  | .xdRelease => "XD_RELEASE"
  | .enqueue => "ENQUEUE"
  | .dequeue => "DEQUEUE"
  | .tryReserveOut => "TRY_RESERVE_OUT"
  | .advanceIn => "ADVANCE_IN"
  | .rearm => "REARM"
  | .haltEngine => "HALT_ENGINE"
  | .drainRxq => "DRAIN_RXQ"
  | .setTrig _ _ => "SET_TRIG"

/-- R98: the expansion of an operation into the operations it is made of; `txqEmpty` is `in.txq_empty`,
which only `SEL_ASSERT` reads. `none`: the operation has no expansion. -/
def Instr.expansion (txqEmpty : Bool) : Instr → Option (List Instr)
  | .submit => some [.xdAcquire, .enqueue, .xdRelease]
  | .receive => some [.xdAcquire, .dequeue, .xdRelease]
  | .selDeassert => some [.haltEngine, .drainRxq, .rearm, .setTrig true true]
  | .selAssert => some [if txqEmpty then .setTrig true true else .setTrig false true]
  | .rearm => some [.xdAcquire, .advanceIn, .tryReserveOut, .xdRelease]
  | .init => none
  | .xdAcquire => none
  | .xdRelease => none
  | .enqueue => none
  | .dequeue => none
  | .tryReserveOut => none
  | .advanceIn => none
  | .haltEngine => none
  | .drainRxq => none
  | .setTrig _ _ => none

end Sys2Proof
end

