-- ==== Sys2Proof/WellFormed.lean ====
section
/-! DEFINITION. What a well-formed instance and a well-formed instruction are. -/

namespace Sys2Proof

/-- R5, R6: both sizes are at least 1. -/
def Config.sizesOk (c : Config) : Bool := decide (1 ≤ c.frameSize ∧ 1 ≤ c.capacity)

/-- `92_eei_decisions.md`, table of open parameters: both depths are at least 1. -/
def Config.depthsOk (c : Config) : Bool := decide (1 ≤ c.rxqDepth ∧ 1 ≤ c.txqDepth)

/-- R8: each region fits below `2^ADDR_W`. -/
def Config.regionsFit (c : Config) : Bool :=
  decide (c.outBase + c.ringBytes ≤ 2 ^ c.addrW ∧ c.inBase + c.ringBytes ≤ 2 ^ c.addrW ∧
    c.zeroBase + c.frameSize ≤ 2 ^ c.addrW)

/-- Two regions, each a first byte and a size, share no address. -/
def regionsApart (b₁ n₁ b₂ n₂ : Nat) : Bool := decide (b₁ + n₁ ≤ b₂ ∨ b₂ + n₂ ≤ b₁)

/-- R8: the three regions are pairwise disjoint. -/
def Config.regionsDisjoint (c : Config) : Bool :=
  regionsApart c.outBase c.ringBytes c.inBase c.ringBytes &&
  regionsApart c.outBase c.ringBytes c.zeroBase c.frameSize &&
  regionsApart c.inBase c.ringBytes c.zeroBase c.frameSize

/-- A legal instance: the constraints of R5, R6, R8 and of the table of open parameters. -/
def Config.wf (c : Config) : Bool :=
  c.sizesOk && c.depthsOk && c.regionsFit && c.regionsDisjoint

/-- R94, R95: `SET_TRIG` takes two bits and no other operation has an operand in its word, so every
term of `Instr` is well-formed: the syntax itself admits no ill-formed operand. -/
def Instr.wf : Instr → Bool
  | .init => true
  | .submit => true
  | .receive => true
  | .selAssert => true
  | .selDeassert => true
  | .xdAcquire => true
  | .xdRelease => true
  | .enqueue => true
  | .dequeue => true
  | .tryReserveOut => true
  | .advanceIn => true
  | .rearm => true
  | .haltEngine => true
  | .drainRxq => true
  | .setTrig _ _ => true

end Sys2Proof
end

