-- ==== Sys2Proof/Decode.lean ====
section
/-! DEFINITION. The operation word: its fields (`30_encoding.md` R91), the decoder, total on every
8-bit value (R97), and the encoder, written from the opcode map (R93). -/

namespace Sys2Proof

/-- `class = w[7:6]` (R91). -/
def opClass (w : OpWord) : Nat := (w.extractLsb' 6 2).toNat

/-- `op = w[5:2]` (R91). -/
def opNumber (w : OpWord) : Nat := (w.extractLsb' 2 4).toNat

/-- `arg = w[1:0]` (R91). -/
def opArg (w : OpWord) : Nat := (w.extractLsb' 0 2).toNat

/-- Why a word is reserved (R96). -/
inductive Reserved where
  /-- `class = 0b11`. -/
  | reservedClass
  /-- No operation of this number in the class. -/
  | reservedOp
  /-- `arg` is not zero in a word other than `SET_TRIG`. -/
  | argNotZero
  /-- No byte at all: there is no word to decode. -/
  | noWord
deriving DecidableEq, Repr

/-- The operations by class and number, the argument aside (R93); `arg` is read by `SET_TRIG` only
(R94: `arg[1] = t`, `arg[0] = r`). -/
def opOf (cls op arg : Nat) : Option Instr :=
  match cls, op with
  | 0, 1 => some .init
  | 0, 2 => some .submit
  | 0, 3 => some .receive
  | 1, 1 => some .selAssert
  | 1, 2 => some .selDeassert
  | 2, 0 => some .xdAcquire
  | 2, 1 => some .xdRelease
  | 2, 2 => some .enqueue
  | 2, 3 => some .dequeue
  | 2, 4 => some .tryReserveOut
  | 2, 5 => some .advanceIn
  | 2, 6 => some .rearm
  | 2, 7 => some .haltEngine
  | 2, 8 => some .drainRxq
  | 2, 9 => some (.setTrig (arg.testBit 1) (arg.testBit 0))
  | _, _ => none

/-- Does the operation use the `arg` field (R91: only `SET_TRIG`)? -/
def usesArg : Instr → Bool
  | .setTrig _ _ => true
  | .init => false
  | .submit => false
  | .receive => false
  | .selAssert => false
  | .selDeassert => false
  | .xdAcquire => false
  | .xdRelease => false
  | .enqueue => false
  | .dequeue => false
  | .tryReserveOut => false
  | .advanceIn => false
  | .rearm => false
  | .haltEngine => false
  | .drainRxq => false

/-- R97: the decoder is total: each 8-bit value is one of the operations or reserved, by name. -/
def decode (w : OpWord) : Except Reserved Instr :=
  if opClass w = 3 then .error .reservedClass
  else
    match opOf (opClass w) (opNumber w) (opArg w) with
    | none => .error .reservedOp
    | some i => if opArg w = 0 ∨ usesArg i = true then .ok i else .error .argNotZero

/-- Decoding from a list of bytes: one word is one byte (R90); the rest is given back. -/
def decodeBytes : List Byte → Except Reserved (Instr × List Byte)
  | [] => .error .noWord
  | w :: rest =>
    match decode w with
    | .ok i => .ok (i, rest)
    | .error e => .error e

/-- A word from its three fields (R91). -/
def wordOfFields (cls op arg : Nat) : OpWord :=
  BitVec.ofNat 2 cls ++ BitVec.ofNat 4 op ++ BitVec.ofNat 2 arg

/-- The `arg` field of `SET_TRIG`, `arg = {t, r}` (R94). -/
def trigArg (t r : Bool) : Nat := 2 * t.toNat + r.toNat

/-- R93: the word of each operation, by its three fields. -/
def encode : Instr → OpWord
  | .init => wordOfFields 0 1 0
  | .submit => wordOfFields 0 2 0
  | .receive => wordOfFields 0 3 0
  | .selAssert => wordOfFields 1 1 0
  | .selDeassert => wordOfFields 1 2 0
  | .xdAcquire => wordOfFields 2 0 0
  | .xdRelease => wordOfFields 2 1 0
  | .enqueue => wordOfFields 2 2 0
  | .dequeue => wordOfFields 2 3 0
  | .tryReserveOut => wordOfFields 2 4 0
  | .advanceIn => wordOfFields 2 5 0
  | .rearm => wordOfFields 2 6 0
  | .haltEngine => wordOfFields 2 7 0
  | .drainRxq => wordOfFields 2 8 0
  | .setTrig t r => wordOfFields 2 9 (trigArg t r)

/-- The bytes of an instruction: its one word (R90). -/
def encodeBytes (i : Instr) : List Byte := [encode i]

/-- The instruction the decoder reads from the table's numbering of a word: every row is 8 bits
(R90), so a length other than 8 or a value that 8 bits do not hold is no word. -/
def decodeTableWord (nbits w : Nat) : Option Instr :=
  if nbits = 8 ∧ w < 256 then
    match decodeBytes [BitVec.ofNat 8 w] with
    | .ok (i, _) => some i
    | .error _ => none
  else none

end Sys2Proof
end

