-- ==== Sys2Proof/Machine/State.lean ====
section
/-! DEFINITION. Everything the spec gives the machine, as plain data: the eighteen registers of
`10_state.md` R20, the byte memory (`20_memory.md` R60), the environment's state (R40), the signals
(R38, R39), and the model's own fields (INVENTORY.md, '## State'). Registers are natural numbers; no
rule wraps at a width (`92_eei_decisions.md` D3), and that each fits its width is an invariant. -/

namespace Sys2Proof.Machine

/-- The Link Phase (R23): 0 = `IDLE`, 1 = `ACTIVE`. -/
inductive LinkPhase where
  | idle
  | active
deriving DecidableEq, Repr

/-- Position of the host context inside a host operation (R26): 0 = `H_IDLE`, 1 = `H_HELD`. -/
inductive HostSeq where
  | idle
  | held
deriving DecidableEq, Repr

/-- The two host operations that take two steps (R168). -/
inductive HostOp where
  | submit
  | receive
deriving DecidableEq, Repr

/-- `HCMD` (R26): the host operation in progress and the frame of its operand. `RECEIVE` has no
operand, and leaves the frame part as it was (DESIGN CHOICE, log entry 8). -/
structure HostCmd where
  op : HostOp
  frame : Frame
deriving DecidableEq, Repr

/-- The two edge events (R218). -/
inductive Edge where
  | asserted
  | deasserted
deriving DecidableEq, Repr

/-- The conditions (R210). `F2 Refused` is not among them: it is a refusal, not a next state. -/
inductive Condition where
  /-- X1 (R211). -/
  | outboundOverflow
  /-- X2 (R212). -/
  | inboundOverflow
  /-- X3 (R213). -/
  | inboundUnderflow
  /-- X4 (R214). -/
  | staleTxQueue
  /-- X5 (R215). -/
  | outboundEmpty
  /-- F1 (R216, R147). -/
  | syncFault
deriving DecidableEq, Repr

/-- One step of an agent outside the block (`45_environment.md`). -/
inductive EnvStep where
  /-- `MASTER: SEL v`, the logical level (R191). -/
  | sel (v : Bool)
  /-- The master drives the pin to an electrical level (R145, R9). -/
  | pin (level : Bool)
  /-- `MASTER: XCHG m` (R192). -/
  | xchg (m : Byte)
  /-- `ENGINE_TX: BYTE` (R193). -/
  | txByte
  /-- `ENGINE_RX: BYTE` (R194). -/
  | rxByte
deriving DecidableEq, Repr

/-- Which agent moves next, with its inputs (R4, R13; log entry 2). -/
inductive Turn where
  /-- HOST presents the word `w` on `in.cmd` and the bits `f` on `in.cmd_frame` (R38). -/
  | cmd (w : OpWord) (f : Nat)
  /-- HOST takes the `.body` step (R168); `during` lists, byte by byte, what other agents do inside
  its frame copy (R79). -/
  | body (during : List (List EnvStep))
  /-- FBSYNC takes a service step (R148). -/
  | service
  /-- A command and a service step in the same instant (R171): the service step goes first. -/
  | contend (w : OpWord) (f : Nat)
  /-- MASTER, ENGINE_TX or ENGINE_RX takes a step. -/
  | env (e : EnvStep)
  /-- `rst` (R240). -/
  | rst
  /-- One operation word issued alone inside the block. The hardware issues `MICRO` words only inside
  an expansion (R98), so this turn is the model's own (log entry 2); `withFetchWord` uses it. -/
  | issue (w : OpWord)
deriving DecidableEq, Repr

/-- The result of an internal operation (R14): it exists inside the block and is no output (R166 (a)). -/
inductive MicroResult where
  | none
  /-- `ENQUEUE`: `ok` (R111). -/
  | ok (b : Bool)
  /-- `DEQUEUE`: `None` or `Some f` (R112). -/
  | frame (r : Option Frame)
  /-- `TRY_RESERVE_OUT`: `None` or `Some s` (R113). -/
  | slot (r : Option Nat)
deriving DecidableEq, Repr

/-- What the last step gave besides its next state: the pulses of R39, the conditions raised (R210)
and the result of an internal operation. The block stores none of it and no rule reads it; it is there
so that a claim can speak of it (log entry 17). -/
structure Report where
  rxLoad : Bool
  txLoad : Bool
  rxAbort : Bool
  txAbort : Bool
  rxqPops : Nat
  conds : List Condition
  result : MicroResult
deriving DecidableEq, Repr

/-- Nothing pulsed, raised or returned. -/
def Report.quiet : Report where
  rxLoad := false
  txLoad := false
  rxAbort := false
  txAbort := false
  rxqPops := 0
  conds := []
  result := .none

/-- Memory: the bytes written since the last reset, by strictly rising address. An unlisted address is
one that nothing has written; what it reads as is `State.unlisted` (log entry 10). -/
abbrev Memory := List Host.Cell

/-- The state of the machine. -/
structure State where
  /-- The parameters, constant (log entry 1). -/
  cfg : Config
  /-- S0 `INITED` (R21). -/
  inited : Bool
  /-- S1 `LOCK` (R22). -/
  lock : Bool
  /-- S2 `LINK_PHASE` (R23). -/
  linkPhase : LinkPhase
  /-- S3 `PEND_A` (R24). -/
  pendA : Bool
  /-- S4 `PEND_D` (R24). -/
  pendD : Bool
  /-- S5 `SYNC_FAULT` (R25). -/
  syncFault : Bool
  /-- S6 `HSEQ` (R26). -/
  hseq : HostSeq
  /-- S7 `HCMD` (R26). -/
  hcmd : HostCmd
  /-- S8 `OUT_CURSOR` (R27). -/
  outCursor : Nat
  /-- S9 `OUT_COUNT` (R28). -/
  outCount : Nat
  /-- S10 `IN_CURSOR` (R29). -/
  inCursor : Nat
  /-- S11 `IN_COUNT` (R30). -/
  inCount : Nat
  /-- S12 `RX_ADDR` (R32). -/
  rxAddr : Nat
  /-- S13 `RX_LEN` (R32). -/
  rxLen : Nat
  /-- S14 `TX_ADDR` (R33). -/
  txAddr : Nat
  /-- S15 `TX_LEN` (R33). -/
  txLen : Nat
  /-- S16 `RX_TRIG_EN` (R34). -/
  rxTrigEn : Bool
  /-- S17 `TX_TRIG_EN` (R34). -/
  txTrigEn : Bool
  /-- The byte memory (R60, R61). -/
  mem : Memory
  /-- Number of resets so far: selects the free bytes of unwritten storage (log entry 10). -/
  epoch : Nat
  /-- `SEL` (R40): the logical level of the select line. -/
  sel : Bool
  /-- `RX_REMAIN` (R40). -/
  rxRemain : Nat
  /-- `TX_REMAIN` (R40). -/
  txRemain : Nat
  /-- `RXQ` (R40), head first. -/
  rxq : List Byte
  /-- `TXQ` (R40), head first. -/
  txq : List Byte
  /-- `MASTER_LOG` (R40), oldest first. -/
  masterLog : List Byte
  /-- Number of underrun bytes drawn so far (log entry 11). -/
  draws : Nat
  /-- `in.cmd` (R38): the word the host presented last. -/
  cmd : OpWord
  /-- `in.cmd_frame` (R38): byte 0 in bits 7:0 (log entry 20). -/
  cmdFrame : Nat
  /-- `out.resp_size` (R39). -/
  respSize : Nat
  /-- `out.resp_frame` (R39): the caller's buffer, left as it was when the size is 0 (R167). -/
  respFrame : Frame
  /-- What other agents do inside the next frame copy: entry `k` before byte `k` moves (R79; log entry 12). -/
  during : List (List EnvStep)
  /-- The turns still to come, next first (log entry 2). -/
  sched : List Turn
  /-- What the last step gave besides its next state (log entry 17). -/
  report : Report
deriving DecidableEq, Repr

/-- Why the machine stops. Both are the model's own, for accesses no run from reset makes, and both
are safe: the spec gives such an access no effect. -/
inductive Fault where
  /-- Raised by a byte access of a frame copy or of a channel at an address that is not below
  `2^ADDR_W`: no such address exists (R60). Safe. -/
  | noSuchAddress (a : Nat)
  /-- Raised by a byte store of a frame copy or of the RX channel into the region `ZERO`: no agent
  writes it (R61, R63). Safe. -/
  | zeroFrameStore (a : Nat)
deriving DecidableEq, Repr

/-- Why an operation has no meaning. -/
inductive Refusal where
  /-- An arm of `exec` without a meaning. No arm is left so. -/
  | notModelled (mnemonic : String)
  /-- Raised when a word is decoded that no operation has (R96, R97; U4). Safe: the spec says the model
  gives it no meaning. -/
  | reservedWord (w : OpWord)
  /-- Raised when the host presents an `EVENT` or `MICRO` word on `in.cmd` (R97; U4). Safe, as above. -/
  | notHostWord (w : OpWord)
  /-- Raised by `SUBMIT` and `RECEIVE` while `INITED = 0` (R170 (a); U1). Safe, as above. -/
  | beforeInit (mnemonic : String)
  /-- Raised by `INIT` while `INITED = 1` (R170 (b); U2). Safe, as above. -/
  | secondInit
  /-- Raised by an operation issued where the guard on its `pre:` line does not hold: the step cannot
  be taken there (R13). Safe (log entry 4). -/
  | notEnabled (mnemonic : String)
deriving DecidableEq, Repr

/-- The three outcomes of a step of this machine. -/
abbrev Result := Host.Outcome State Fault Refusal

/-- The state right after reset of an instance with parameters `c`: the table of `10_state.md` R42. The
bindings and `HCMD`, which R42 leaves unspecified, and what lies outside the block, hold the values named
in log entries 7, 8 and 9. Storage lists nothing: nothing has been written (R78). -/
def State.resetOf (c : Config) : State where
  cfg := c
  inited := false
  lock := false
  linkPhase := .idle
  pendA := false
  pendD := false
  syncFault := false
  hseq := .idle
  hcmd := { op := .receive, frame := List.replicate c.frameSize 0 }
  outCursor := 0
  outCount := 0
  inCursor := 0
  inCount := 0
  rxAddr := 0
  rxLen := 0
  txAddr := 0
  txLen := 0
  rxTrigEn := false
  txTrigEn := false
  mem := []
  epoch := 0
  sel := false
  rxRemain := 0
  txRemain := 0
  rxq := []
  txq := []
  masterLog := []
  draws := 0
  cmd := 0
  cmdFrame := 0
  respSize := 0
  respFrame := List.replicate c.frameSize 0
  during := []
  sched := []
  report := Report.quiet

/-- The machine right after reset, with the reference parameters (log entry 1). -/
def State.reset : State := State.resetOf Config.reference

end Sys2Proof.Machine
end

