-- ==== Sys2Proof/Machine/Operands.lean ====
section
/-! DEFINITION. Operand forms: slot addresses (`20_memory.md` R62), the three index forms
(`40_ring_pointer_ops.md` R115), the frame operand on the port (`10_state.md` R38), the signals the block
reads and drives (R38, R39), and the registers by name and number (R20). -/

namespace Sys2Proof.Machine

/-- `slot_addr(B, i) = B + i * FRAME_SIZE` (R62). -/
def slotAddr (c : Config) (base i : Nat) : Nat := base + i * c.frameSize

/-- `(x + 1) mod CAPACITY` (R115): the next slot of a ring. -/
def nextSlot (c : Config) (x : Nat) : Nat := (x + 1) % c.capacity

/-- R111: the outbound slot the next `ENQUEUE` writes. -/
def State.enqueueSlot (s : State) : Nat := (s.outCursor + s.outCount) % s.cfg.capacity

/-- R112: the inbound slot the next `DEQUEUE` reads. -/
def State.dequeueSlot (s : State) : Nat :=
  (s.inCursor + s.cfg.capacity - s.inCount) % s.cfg.capacity

/-- R27: the outbound slot the TX channel is bound to, when it is bound to a ring slot. -/
def State.boundTxSlot (s : State) : Nat :=
  (s.outCursor + s.cfg.capacity - 1) % s.cfg.capacity

/-- The `n` bytes a port of `8*n` bits carries, byte 0 in bits 7:0 (R38). -/
def portFrame (n v : Nat) : Frame := (List.range n).map (fun k => BitVec.ofNat 8 (v >>> (8 * k)))

/-- The bits of a frame on a port, byte 0 in bits 7:0 (R39). -/
def frameBits : Frame → Nat
  | [] => 0
  | b :: f => b.toNat + 256 * frameBits f

/-- The frame operand of `SUBMIT`, sampled from `in.cmd_frame` (R95, R166). -/
def State.portOperand (s : State) : Frame := portFrame s.cfg.frameSize s.cmdFrame

/-- `in.sel` (R38, R191). -/
def State.inSel (s : State) : Bool := s.sel

/-- `in.txq_empty` (R38, R200). -/
def State.txqEmpty (s : State) : Bool := s.txq.isEmpty

/-- `in.rxq_empty` (R38, R200). -/
def State.rxqEmpty (s : State) : Bool := s.rxq.isEmpty

/-- The Link Phase that a level of the line means (R23: 1 = asserted = `ACTIVE`). -/
def LinkPhase.ofLevel : Bool → LinkPhase
  | true => .active
  | false => .idle

/-- The logical level of a pin level (R145: the pin compared with `SEL_ACTIVE_LEVEL`). -/
def logicalLevel (c : Config) (pin : Bool) : Bool := pin == c.selActiveLevel

/-- The output signals (R39); the memory port is the memory itself. -/
structure Outputs where
  rxAddr : Nat
  rxLen : Nat
  txAddr : Nat
  txLen : Nat
  rxLoad : Bool
  txLoad : Bool
  rxTrigEn : Bool
  txTrigEn : Bool
  rxAbort : Bool
  txAbort : Bool
  /-- How many times `out.rxq_pop` was pulsed in the last step. -/
  rxqPops : Nat
  respSize : Nat
  /-- `8*FRAME_SIZE` bits, byte 0 in bits 7:0. -/
  respFrame : Nat
deriving DecidableEq, Repr

/-- The output signals after a step (R39). -/
def State.outputs (s : State) : Outputs where
  rxAddr := s.rxAddr
  rxLen := s.rxLen
  txAddr := s.txAddr
  txLen := s.txLen
  rxLoad := s.report.rxLoad
  txLoad := s.report.txLoad
  rxTrigEn := s.rxTrigEn
  txTrigEn := s.txTrigEn
  rxAbort := s.report.rxAbort
  txAbort := s.report.txAbort
  rxqPops := s.report.rxqPops
  respSize := s.respSize
  respFrame := frameBits s.respFrame

/-- The registers by name (R20). -/
inductive Reg where
  | inited
  | lock
  | linkPhase
  | pendA
  | pendD
  | syncFault
  | hseq
  | hcmd
  | outCursor
  | outCount
  | inCursor
  | inCount
  | rxAddr
  | rxLen
  | txAddr
  | txLen
  | rxTrigEn
  | txTrigEn
deriving DecidableEq, Repr

/-- The number `S<i>` of a register (R20). -/
def Reg.number : Reg → Nat
  | .inited => 0
  | .lock => 1
  | .linkPhase => 2
  | .pendA => 3
  | .pendD => 4
  | .syncFault => 5
  | .hseq => 6
  | .hcmd => 7
  | .outCursor => 8
  | .outCount => 9
  | .inCursor => 10
  | .inCount => 11
  | .rxAddr => 12
  | .rxLen => 13
  | .txAddr => 14
  | .txLen => 15
  | .rxTrigEn => 16
  | .txTrigEn => 17

/-- What a register holds: an unsigned integer (R10), or the record `HCMD`. -/
inductive RegValue where
  | num (n : Nat)
  | cmd (c : HostCmd)
deriving DecidableEq, Repr

/-- `LINK_PHASE` as the spec encodes it (R23). -/
def LinkPhase.toNat : LinkPhase → Nat
  | .idle => 0
  | .active => 1

/-- `HSEQ` as the spec encodes it (R26). -/
def HostSeq.toNat : HostSeq → Nat
  | .idle => 0
  | .held => 1

/-- Reads a register by name; `x[i]` of R12 is `s.reg r` for the `r` with number `i`. -/
def State.reg (s : State) : Reg → RegValue
  | .inited => .num s.inited.toNat
  | .lock => .num s.lock.toNat
  | .linkPhase => .num s.linkPhase.toNat
  | .pendA => .num s.pendA.toNat
  | .pendD => .num s.pendD.toNat
  | .syncFault => .num s.syncFault.toNat
  | .hseq => .num s.hseq.toNat
  | .hcmd => .cmd s.hcmd
  | .outCursor => .num s.outCursor
  | .outCount => .num s.outCount
  | .inCursor => .num s.inCursor
  | .inCount => .num s.inCount
  | .rxAddr => .num s.rxAddr
  | .rxLen => .num s.rxLen
  | .txAddr => .num s.txAddr
  | .txLen => .num s.txLen
  | .rxTrigEn => .num s.rxTrigEn.toNat
  | .txTrigEn => .num s.txTrigEn.toNat

/-- The width in bits of a register (R20); `HCMD` is a record and has none. -/
def Reg.width (c : Config) : Reg → Option Nat
  | .inited => some 1
  | .lock => some 1
  | .linkPhase => some 1
  | .pendA => some 1
  | .pendD => some 1
  | .syncFault => some 1
  | .hseq => some 1
  | .hcmd => none
  | .outCursor => some c.idxW
  | .outCount => some c.cntW
  | .inCursor => some c.idxW
  | .inCount => some c.cntW
  | .rxAddr => some c.addrW
  | .rxLen => some c.lenW
  | .txAddr => some c.addrW
  | .txLen => some c.lenW
  | .rxTrigEn => some 1
  | .txTrigEn => some 1

end Sys2Proof.Machine
end

