-- ==== Sys2Proof/Machine/Flags.lean ====
section
/-! DEFINITION. The one-bit computations: conditions raised (`60_exceptions.md` R210), the pending bits and
`SYNC_FAULT` at an edge (`42_edge_handler.md` R146, R147), which event is serviced (R148), and the guards of
the steps (`00_scope.md` R13). There are no arithmetic flags. -/

namespace Sys2Proof.Machine

/-- `raise c` (R12, R210): selects the stated outcome and stores nothing in the block; recorded in the
step's report. -/
def State.raise (c : Condition) (s : State) : State :=
  { s with report := { s.report with conds := s.report.conds ++ [c] } }

/-- F1 (R147): the edge cannot be remembered; the sticky bit is set. -/
def State.loseEdge (s : State) : State :=
  State.raise .syncFault { s with syncFault := true }

/-- The detector's guard (R146): initialised, and the line differs from its registered copy. -/
def State.edgeSeen (s : State) : Bool :=
  s.inited && decide (LinkPhase.ofLevel s.inSel ≠ s.linkPhase)

/-- `DETECT` (R146). -/
def State.detect (s : State) : State :=
  if s.edgeSeen then
    if s.inSel then
      if s.pendA then State.loseEdge { s with linkPhase := LinkPhase.ofLevel s.inSel }
      else { s with linkPhase := LinkPhase.ofLevel s.inSel, pendA := true }
    else
      if s.pendD then State.loseEdge { s with linkPhase := LinkPhase.ofLevel s.inSel }
      else { s with linkPhase := LinkPhase.ofLevel s.inSel, pendD := true }
  else s

/-- R148, R220: the older pending event; with both bits set the level after the second edge tells. -/
def State.oldestPending (s : State) : Option Edge :=
  match s.pendA, s.pendD with
  | true, true => if s.linkPhase = .active then some .deasserted else some .asserted
  | false, true => some .deasserted
  | true, false => some .asserted
  | false, false => none

/-- R148: the event a service step takes, if one is enabled: `INITED = 1`, `LOCK = 0`, a bit pending. -/
def State.serviceChoice (s : State) : Option Edge :=
  if s.inited = true ∧ s.lock = false then s.oldestPending else none

/-- The guard of a `.body` step (R166, R167), with that of the ring operation in it (R110: `LOCK = 1`). -/
def State.bodyEnabled (s : State) : Bool := decide (s.hseq = .held) && s.lock

/-- The guard of `ENGINE_TX: BYTE` (R193). -/
def State.txReady (s : State) : Bool :=
  s.txTrigEn && decide (0 < s.txRemain) && decide (s.txq.length < s.cfg.txqDepth)

/-- The guard of `ENGINE_RX: BYTE` (R194). -/
def State.rxReady (s : State) : Bool :=
  s.rxTrigEn && decide (0 < s.rxRemain) && !s.rxqEmpty

/-- The code of a condition (R210). -/
def Condition.code : Condition → String
  | .outboundOverflow => "X1"
  | .inboundOverflow => "X2"
  | .inboundUnderflow => "X3"
  | .staleTxQueue => "X4"
  | .outboundEmpty => "X5"
  | .syncFault => "F1"

end Sys2Proof.Machine
end

