-- ==== Sys2Proof/Machine/Memory.lean ====
section
/-! DEFINITION. The byte memory (`20_memory.md`): one space, one byte per address (R60), accesses of one byte
and sequences of them (R66), no alignment and no side effects (R65, R68). -/

namespace Sys2Proof.Machine

/-- The canonical form: addresses strictly rising. A listed byte is a written byte and an unlisted
address is an unwritten one, so no listed entry equals what an unlisted address holds (log entry 10). -/
abbrev Memory.wf (m : Memory) : Prop := m.Pairwise (fun c d => c.1 < d.1)

/-- The byte written last at `x`, if any. -/
def Memory.lookup (m : Memory) (x : Nat) : Option Byte :=
  match m with
  | [] => none
  | (a, v) :: m => if x = a then some v else Memory.lookup m x

/-- Writes one byte, keeping the canonical form. -/
def Memory.write (m : Memory) (x : Nat) (b : Byte) : Memory :=
  match m with
  | [] => [(x, b)]
  | (a, v) :: m =>
    if x < a then (x, b) :: (a, v) :: m
    else if x = a then (x, b) :: m
    else (a, v) :: Memory.write m x b

/-- What an unlisted address reads as: a zero in the region `ZERO` (R63), elsewhere the free byte that
nothing has written since the last reset (R78, U5; log entry 10). -/
def State.unlisted (s : State) (a : Nat) : Byte :=
  if s.cfg.inZero a then 0 else Config.unwrittenByte s.epoch a

/-- The byte at an address. The region `ZERO` reads as zeros in every state (R63). -/
def State.readByte (s : State) (a : Nat) : Byte :=
  if s.cfg.inZero a then 0 else (Memory.lookup s.mem a).getD (s.unlisted a)

/-- `MemRead(a, n)` (R12): lowest address first. -/
def State.readBytes (s : State) (a : Nat) : Nat → List Byte
  | 0 => []
  | n + 1 => s.readByte a :: s.readBytes (a + 1) n

/-- One byte read by an agent: the address must exist (R60). -/
def State.loadByte (s : State) (a : Nat) : Except Fault Byte :=
  if a < 2 ^ s.cfg.addrW then .ok (s.readByte a) else .error (.noSuchAddress a)

/-- One byte written by an agent: the address must exist (R60) and not be in `ZERO` (R63). -/
def State.storeByte (s : State) (a : Nat) (b : Byte) : Except Fault State :=
  if 2 ^ s.cfg.addrW ≤ a then .error (.noSuchAddress a)
  else if s.cfg.inZero a then .error (.zeroFrameStore a)
  else .ok { s with mem := Memory.write s.mem a b }

end Sys2Proof.Machine
end

