-- ==== Sys2Proof/Machine/Environment.lean ====
section
/-! DEFINITION. The reference environment (`45_environment.md`): the master, the two engine channels and the
peripheral's queues. It is outside the block (R190). A step whose guard does not hold is not taken and
changes nothing (`00_scope.md` R13; log entry 3). -/

namespace Sys2Proof.Machine

/-- `MASTER: SEL v` (R191), with `DETECT` fused into the change (R146). -/
def State.masterSel (v : Bool) (s : State) : State := State.detect { s with sel := v }

/-- The byte the master receives (R192): the head of `TXQ`, or an underrun byte, a free value (U7). -/
def State.outByte (s : State) : Byte :=
  match s.txq with
  | b :: _ => b
  | [] => Config.underrunByte s.draws

/-- `MASTER: XCHG m` (R192): one byte each way while the line is asserted; a byte sent into a full
receive queue is lost (U8). -/
def State.masterXchg (m : Byte) (s : State) : State :=
  if s.sel then
    { s with
      masterLog := s.masterLog ++ [s.outByte]
      txq := s.txq.tail
      draws := if s.txqEmpty then s.draws + 1 else s.draws
      rxq := if s.rxq.length < s.cfg.rxqDepth then s.rxq ++ [m] else s.rxq }
  else s

/-- `ENGINE_TX: BYTE` (R193): the next byte of the bound frame goes into `TXQ`. -/
def State.engineTx (s : State) : Except Fault State :=
  if s.txReady then
    match s.loadByte (s.txAddr + (s.txLen - s.txRemain)) with
    | .error e => .error e
    | .ok b => .ok { s with txq := s.txq ++ [b], txRemain := s.txRemain - 1 }
  else .ok s

/-- `ENGINE_RX: BYTE` (R194): the head of `RXQ` goes to the next byte of the bound slot. -/
def State.engineRx (s : State) : Except Fault State :=
  if s.rxReady then
    match s.rxq with
    | [] => .ok s
    | b :: rest =>
      match s.storeByte (s.rxAddr + (s.rxLen - s.rxRemain)) b with
      | .error e => .error e
      | .ok s' => .ok { s' with rxq := rest, rxRemain := s'.rxRemain - 1 }
  else .ok s

/-- One step of an agent outside the block. -/
def envStep (e : EnvStep) (s : State) : Except Fault State :=
  match e with
  | .sel v => .ok (s.masterSel v)
  | .pin level => .ok (s.masterSel (logicalLevel s.cfg level))
  | .xchg m => .ok (s.masterXchg m)
  | .txByte => s.engineTx
  | .rxByte => s.engineRx

/-- Several of them, in order (R71: one total order). -/
def envSteps (es : List EnvStep) (s : State) : Except Fault State :=
  match es with
  | [] => .ok s
  | e :: es =>
    match envStep e s with
    | .error r => .error r
    | .ok s' => envSteps es s'

end Sys2Proof.Machine
end

