-- ==== Sys2Proof/Machine/Ops.lean ====
section
/-! DEFINITION. The shared operations the meanings are made of: frame copies (`20_memory.md` R66, R79), the ring
pointer operations (`40_ring_pointer_ops.md`), the bindings (`41_engine_controller.md`), the enables and the
receive queue (`42_edge_handler.md`), the exclusion domain (`44_exclusion_domain.md`), and taking an event and
returning from it (`60_exceptions.md` R224, R225). The guards stand in the meanings that call them. -/

namespace Sys2Proof.Machine

/-- Ends an operation that may meet a fault. -/
def finish : Except Fault State → Result
  | .ok s => .next s
  | .error r => .fault r

/-- Records the result of an internal operation (R14). -/
def State.withResult (r : MicroResult) (s : State) : State :=
  { s with report := { s.report with result := r } }

/-- `MemWrite(a, n, f)` of a frame copy (R12, R66), byte 0 first. It is not atomic against the other
agents: the steps listed for a byte happen before that byte moves, those left over after the last (R79). -/
def copyIn (a : Nat) (f : Frame) (during : List (List EnvStep)) (s : State) : Except Fault State :=
  match f with
  | [] => envSteps during.flatten s
  | b :: f =>
    match envSteps (during.headD []) s with
    | .error r => .error r
    | .ok s₁ =>
      match s₁.storeByte a b with
      | .error r => .error r
      | .ok s₂ => copyIn (a + 1) f during.tail s₂

/-- `MemRead(a, n)` of a frame copy (R12, R66), byte 0 first, not atomic against the other agents (R79). -/
def copyOut (a n : Nat) (during : List (List EnvStep)) (s : State) : Except Fault (State × Frame) :=
  match n with
  | 0 =>
    match envSteps during.flatten s with
    | .error r => .error r
    | .ok s' => .ok (s', [])
  | n + 1 =>
    match envSteps (during.headD []) s with
    | .error r => .error r
    | .ok s₁ =>
      match s₁.loadByte a with
      | .error r => .error r
      | .ok b =>
        match copyOut (a + 1) n during.tail s₁ with
        | .error r => .error r
        | .ok (s', f) => .ok (s', b :: f)

/-- `XD_ACQUIRE` (R180): `LOCK <- 1`. -/
def State.takeLock (s : State) : State := { s with lock := true }

/-- `XD_RELEASE` (R181): `LOCK <- 0`. -/
def State.dropLock (s : State) : State := { s with lock := false }

/-- `ENQUEUE f` (R111): the next state and `ok`. When the ring is full nothing is copied, so the steps
listed for the copy are not taken (log entry 12). -/
def State.enqueue (f : Frame) (s : State) : Except Fault (State × Bool) :=
  if s.outCount = s.cfg.capacity then
    .ok (State.raise .outboundOverflow { s with during := [] }, false)
  else
    match copyIn (slotAddr s.cfg s.cfg.outBase s.enqueueSlot) f s.during { s with during := [] } with
    | .error r => .error r
    | .ok s' => .ok ({ s' with outCount := s'.outCount + 1 }, true)

/-- `DEQUEUE` (R112): the next state and `None` or `Some f`. -/
def State.dequeue (s : State) : Except Fault (State × Option Frame) :=
  if s.inCount = 0 then
    .ok (State.raise .inboundUnderflow { s with during := [] }, none)
  else
    match copyOut (slotAddr s.cfg s.cfg.inBase s.dequeueSlot) s.cfg.frameSize s.during
        { s with during := [] } with
    | .error r => .error r
    | .ok (s', f) => .ok ({ s' with inCount := s'.inCount - 1 }, some f)

/-- The result of `TRY_RESERVE_OUT` (R113): the oldest stored outbound slot, if there is one. -/
def State.reservedSlot (s : State) : Option Nat :=
  if 0 < s.outCount then some s.outCursor else none

/-- The next state of `TRY_RESERVE_OUT` (R113). -/
def State.reserveOut (s : State) : State :=
  if 0 < s.outCount then
    { s with outCursor := nextSlot s.cfg s.outCursor, outCount := s.outCount - 1 }
  else State.raise .outboundEmpty s

/-- `ADVANCE_IN` (R114): the count saturates; the cursor moves in both cases. -/
def State.advanceIn (s : State) : State :=
  if s.inCount = s.cfg.capacity then
    { State.raise .inboundOverflow s with inCursor := nextSlot s.cfg s.inCursor }
  else
    { s with inCount := s.inCount + 1, inCursor := nextSlot s.cfg s.inCursor }

/-- Writes the inbound binding and loads the RX channel (R32, R130, R195). -/
def State.bindRx (a : Nat) (s : State) : State :=
  { s with
    rxAddr := a
    rxLen := s.cfg.frameSize
    rxRemain := s.cfg.frameSize
    report := { s.report with rxLoad := true } }

/-- Writes the outbound binding and loads the TX channel (R33, R130, R195). -/
def State.bindTx (a : Nat) (s : State) : State :=
  { s with
    txAddr := a
    txLen := s.cfg.frameSize
    txRemain := s.cfg.frameSize
    report := { s.report with txLoad := true } }

/-- R132: the address of the reserved outbound slot, or of the zero frame. -/
def State.outboundTarget (s : State) : Nat :=
  match s.reservedSlot with
  | some k => slotAddr s.cfg s.cfg.outBase k
  | none => s.cfg.zeroBase

/-- `ADVANCE_IN` and the inbound binding (R130, R131): the address is that of the new cursor. -/
def State.rearmIn (s : State) : State :=
  State.bindRx (slotAddr s.cfg s.cfg.inBase s.advanceIn.inCursor) s.advanceIn

/-- `TRY_RESERVE_OUT` and the outbound binding (R130, R132). -/
def State.rearmOut (s : State) : State := State.bindTx s.outboundTarget s.reserveOut

/-- `REARM` (R130), in the document's order: acquire, inbound, outbound, release. -/
def State.rearm (s : State) : State := s.takeLock.rearmIn.rearmOut.dropLock

/-- `HALT_ENGINE` (R151, R196): both enables 0, both channels aborted at once. -/
def State.haltEngine (s : State) : State :=
  { s with
    rxTrigEn := false
    txTrigEn := false
    rxRemain := 0
    txRemain := 0
    report := { s.report with rxAbort := true, txAbort := true } }

/-- `DRAIN_RXQ` (R152, R200): one pop pulse for each byte of `RXQ`, all discarded. -/
def State.drainRxq (s : State) : State :=
  { s with
    rxq := []
    report := { s.report with rxqPops := s.report.rxqPops + s.rxq.length } }

/-- `SET_TRIG t r` (R153): both enables written. -/
def State.setTrig (t r : Bool) (s : State) : State := { s with rxTrigEn := r, txTrigEn := t }

/-- Taking an event (R224, R219): nothing is saved and nothing switched; the only state the entry
changes is the pending bit it clears. The handler for an event is fixed. -/
def State.takeEvent (e : Edge) (s : State) : State :=
  match e with
  | .asserted => { s with pendA := false }
  | .deasserted => { s with pendD := false }

/-- Returning from a handler (R225): nothing is restored, because nothing was saved. -/
def State.returnFromEvent (s : State) : State := s

/-- The assert edge's handler (R149), its event taken. -/
def State.handleAssert (s : State) : State :=
  if s.txqEmpty then State.setTrig true true s
  else State.setTrig false true (State.raise .staleTxQueue s)

/-- The deassert edge's handler (R150), its event taken. -/
def State.handleDeassert (s : State) : State :=
  State.setTrig true true s.haltEngine.drainRxq.rearm

/-- `.acquire` (R166, R167): the operation and its operand into `HCMD`, the domain taken, `H_HELD`. -/
def State.hostAcquire (c : HostCmd) (s : State) : State :=
  { s.takeLock with hcmd := c, hseq := .held }

/-- The end of `.body` (R166, R167): the domain released, `H_IDLE`. -/
def State.hostRelease (s : State) : State := { s.dropLock with hseq := .idle }

/-- The result of `RECEIVE` on its outputs (R167): the size and the frame, or the size 0 with the
frame output left as it was (U11). -/
def State.respond (r : Option Frame) (s : State) : State :=
  match r with
  | some f => { s with respSize := s.cfg.frameSize, respFrame := f }
  | none => { s with respSize := 0 }

end Sys2Proof.Machine
end

