-- ==== Sys2Proof/Machine/EdgeHandler.lean ====
section
/-! DEFINITION. The two edge events (`42_edge_handler.md` R149, R150). Each is one atomic step (R154): the event is
taken, its pending bit cleared, and the whole handler runs. -/

namespace Sys2Proof.Machine

/-- `SEL_ASSERT` (R149); guard of R148 with the assert event chosen. -/
def execSelAssert (s : State) : Result :=
  if s.serviceChoice = some .asserted then
    .next (State.takeEvent .asserted s).handleAssert.returnFromEvent
  else .refused (.notEnabled "SEL_ASSERT")

/-- `SEL_DEASSERT` (R150); guard of R148 with the deassert event chosen. -/
def execSelDeassert (s : State) : Result :=
  if s.serviceChoice = some .deasserted then
    .next (State.takeEvent .deasserted s).handleDeassert.returnFromEvent
  else .refused (.notEnabled "SEL_DEASSERT")

end Sys2Proof.Machine
end

