-- ==== Sys2Proof/Machine/Engine.lean ====
section
/-! DEFINITION. The engine's operations: `REARM` (`41_engine_controller.md` R130), `HALT_ENGINE`, `DRAIN_RXQ`,
`SET_TRIG` (`42_edge_handler.md` R151 to R153), and the exclusion domain's two (`44_exclusion_domain.md`). -/

namespace Sys2Proof.Machine

/-- `REARM` (R130); guard `LOCK = 0`, `INITED = 1`. It never fails (R134). -/
def execRearm (s : State) : Result :=
  if s.lock = false ∧ s.inited = true then .next s.rearm else .refused (.notEnabled "REARM")

/-- `HALT_ENGINE` (R151); no guard. -/
def execHaltEngine (s : State) : Result := .next s.haltEngine

/-- `DRAIN_RXQ` (R152); no guard. -/
def execDrainRxq (s : State) : Result := .next s.drainRxq

/-- `SET_TRIG t r` (R153); no guard. -/
def execSetTrig (t r : Bool) (s : State) : Result := .next (State.setTrig t r s)

/-- `XD_ACQUIRE` (R180); guard `LOCK = 0`. -/
def execXdAcquire (s : State) : Result :=
  if s.lock then .refused (.notEnabled "XD_ACQUIRE") else .next s.takeLock

/-- `XD_RELEASE` (R181); guard `LOCK = 1`. -/
def execXdRelease (s : State) : Result :=
  if s.lock then .next s.dropLock else .refused (.notEnabled "XD_RELEASE")

end Sys2Proof.Machine
end

