-- ==== Sys2Proof/Machine/HostOps.lean ====
section
/-! DEFINITION. The host operations (`43_host_api.md`). `SUBMIT` and `RECEIVE` take two steps (R168): the
meaning takes the one that `HSEQ` and `HCMD` say comes next. -/

namespace Sys2Proof.Machine

/-- What `INIT` writes (R165). -/
def State.initialised (s : State) : State :=
  { State.bindTx s.cfg.zeroBase (State.bindRx (slotAddr s.cfg s.cfg.inBase 0) s) with
    outCursor := 0
    outCount := 0
    inCursor := 0
    inCount := 0
    rxTrigEn := true
    txTrigEn := true
    linkPhase := LinkPhase.ofLevel s.inSel
    pendA := false
    pendD := false
    inited := true }

/-- `INIT` (R165); a second one is refused (R170 (b)). -/
def execInit (s : State) : Result :=
  if s.inited then .refused .secondInit
  else if s.hseq = .idle then .next s.initialised
  else .refused (.notEnabled "INIT")

/-- `SUBMIT.body` (R166): `ENQUEUE` of the held frame, its `ok` discarded, and the release. -/
def State.submitBody (s : State) : Except Fault State :=
  match s.enqueue s.hcmd.frame with
  | .error r => .error r
  | .ok (s', _) => .ok s'.hostRelease

/-- `SUBMIT` (R166, R168); before `INIT` it is refused (R170 (a)). -/
def execSubmit (s : State) : Result :=
  match s.hseq with
  | .idle =>
    if s.inited then
      if s.lock then .refused (.notEnabled "SUBMIT")
      else .next (State.hostAcquire { op := .submit, frame := s.portOperand } s)
    else .refused (.beforeInit "SUBMIT")
  | .held =>
    if s.hcmd.op = .submit ∧ s.lock = true then finish s.submitBody
    else .refused (.notEnabled "SUBMIT")

/-- `RECEIVE.body` (R167): `DEQUEUE`, its result on the outputs, and the release. -/
def State.receiveBody (s : State) : Except Fault State :=
  match s.dequeue with
  | .error r => .error r
  | .ok (s', f) => .ok (State.respond f s').hostRelease

/-- `RECEIVE` (R167, R168); before `INIT` it is refused (R170 (a)). -/
def execReceive (s : State) : Result :=
  match s.hseq with
  | .idle =>
    if s.inited then
      if s.lock then .refused (.notEnabled "RECEIVE")
      else .next (State.hostAcquire { s.hcmd with op := .receive } s)
    else .refused (.beforeInit "RECEIVE")
  | .held =>
    if s.hcmd.op = .receive ∧ s.lock = true then finish s.receiveBody
    else .refused (.notEnabled "RECEIVE")

end Sys2Proof.Machine
end

