-- ==== Sys2Proof/Machine/Ring.lean ====
section
/-! DEFINITION. The ring pointer operations (`40_ring_pointer_ops.md`). Guard of all four: `LOCK = 1` (R110). -/

namespace Sys2Proof.Machine

/-- `ENQUEUE` (R111): the frame of `HCMD` into the outbound ring, or dropped. -/
def execEnqueue (s : State) : Result :=
  if s.lock then
    match s.enqueue s.hcmd.frame with
    | .error r => .fault r
    | .ok (s', ok) => .next (State.withResult (.ok ok) s')
  else .refused (.notEnabled "ENQUEUE")

/-- `DEQUEUE` (R112): the oldest inbound frame, or none. -/
def execDequeue (s : State) : Result :=
  if s.lock then
    match s.dequeue with
    | .error r => .fault r
    | .ok (s', f) => .next (State.withResult (.frame f) s')
  else .refused (.notEnabled "DEQUEUE")

/-- `TRY_RESERVE_OUT` (R113): the oldest outbound slot, or none. -/
def execTryReserveOut (s : State) : Result :=
  if s.lock then .next (State.withResult (.slot s.reservedSlot) s.reserveOut)
  else .refused (.notEnabled "TRY_RESERVE_OUT")

/-- `ADVANCE_IN` (R114). -/
def execAdvanceIn (s : State) : Result :=
  if s.lock then .next s.advanceIn else .refused (.notEnabled "ADVANCE_IN")

end Sys2Proof.Machine
end

