-- ==== Sys2Proof/Machine/Dispatch.lean ====
section
/-! DEFINITION. The meaning of each operation: one arm per constructor, one direct call. -/

namespace Sys2Proof.Machine

def exec (i : Instr) (s : State) : Host.Outcome State Fault Refusal :=
  match i with
  | .init => Sys2Proof.Machine.execInit s
  | .submit => Sys2Proof.Machine.execSubmit s
  | .receive => Sys2Proof.Machine.execReceive s
  | .selAssert => Sys2Proof.Machine.execSelAssert s
  | .selDeassert => Sys2Proof.Machine.execSelDeassert s
  | .xdAcquire => Sys2Proof.Machine.execXdAcquire s
  | .xdRelease => Sys2Proof.Machine.execXdRelease s
  | .enqueue => Sys2Proof.Machine.execEnqueue s
  | .dequeue => Sys2Proof.Machine.execDequeue s
  | .tryReserveOut => Sys2Proof.Machine.execTryReserveOut s
  | .advanceIn => Sys2Proof.Machine.execAdvanceIn s
  | .rearm => Sys2Proof.Machine.execRearm s
  | .haltEngine => Sys2Proof.Machine.execHaltEngine s
  | .drainRxq => Sys2Proof.Machine.execDrainRxq s
  | .setTrig t r => Sys2Proof.Machine.execSetTrig t r s

end Sys2Proof.Machine
end

