-- ==== Sys2Proof/Machine/Agents.lean ====
section
/-! DEFINITION. The turns of the agents: how a command, an edge event or an issued word becomes an operation, and
what reset does. A step whose guard does not hold is not taken and changes nothing (R13; log entry 3). -/

namespace Sys2Proof.Machine

/-- The operation an edge event is (R93, R224: the handler for an event is fixed). -/
def Edge.instr : Edge → Instr
  | .asserted => .selAssert
  | .deasserted => .selDeassert

/-- The operation whose next step the host takes (R26). -/
def HostOp.instr : HostOp → Instr
  | .submit => .submit
  | .receive => .receive

/-- Decodes a word and runs it (R97: a reserved word is refused). -/
def runWord (w : OpWord) (s : State) : Result :=
  match decode w with
  | .error _ => .refused (.reservedWord w)
  | .ok i => exec i s

/-- A word of format `HOST` presented while a host operation is held. What R170 (a) and (b) refuse is refused
then too; any other is not accepted and changes nothing (R169; log entry 25). -/
def presentWhileHeld (i : Instr) (s : State) : Result :=
  match decide (i = .init), s.inited with
  | true, true => .refused .secondInit
  | true, false => .next s
  | false, true => .next s
  | false, false => .refused (.beforeInit i.mnemonic)

/-- The word on `in.cmd`: one that is reserved or not of format `HOST` is refused, whatever `HSEQ` is (R97,
R170 (c)); another runs if no host operation is held (R169). -/
def acceptCommand (s : State) : Result :=
  match decode s.cmd with
  | .error _ => .refused (.reservedWord s.cmd)
  | .ok i =>
    if i.format = .host then
      match s.hseq with
      | .idle => exec i s
      | .held => presentWhileHeld i s
    else .refused (.notHostWord s.cmd)

/-- The host drives its two input signals (R38). -/
def State.present (w : OpWord) (f : Nat) (s : State) : State := { s with cmd := w, cmdFrame := f }

/-- The host's `.body` step (R168), with what other agents do inside its frame copy (R79). -/
def bodyTurn (during : List (List EnvStep)) (s : State) : Result :=
  if s.bodyEnabled then exec s.hcmd.op.instr { s with during := during } else .next s

/-- The service step (R148). -/
def serviceTurn (s : State) : Result :=
  match s.serviceChoice with
  | some e => exec e.instr s
  | none => .next s

/-- A command and a service step in the same instant (R171): an enabled service step is granted first
and the command follows. -/
def contendTurn (w : OpWord) (f : Nat) (s : State) : Result :=
  match s.serviceChoice with
  | some e => exec e.instr { s with sched := .cmd w f :: s.sched }
  | none => acceptCommand (s.present w f)

/-- `rst` (R240 to R242): every register takes its value of R42, storage is unspecified again (a new
epoch), and the environment and the input signals stay. The result outputs, which no rule resets, stay. -/
def State.afterRst (s : State) : State :=
  { State.resetOf s.cfg with
    epoch := s.epoch + 1
    sel := s.sel
    rxRemain := s.rxRemain
    txRemain := s.txRemain
    rxq := s.rxq
    txq := s.txq
    masterLog := s.masterLog
    draws := s.draws
    cmd := s.cmd
    cmdFrame := s.cmdFrame
    respSize := s.respSize
    respFrame := s.respFrame
    sched := s.sched }

/-- With no turn left the block goes on by itself (fairness, R259): a service step if one is enabled,
else a `.body` step if one is, else nothing happens (R241: the block does nothing on its own). -/
def idleTurn (s : State) : Result :=
  match s.serviceChoice with
  | some e => exec e.instr s
  | none => bodyTurn [] s

/-- One turn. -/
def runTurn (t : Turn) (s : State) : Result :=
  match t with
  | .cmd w f => acceptCommand (s.present w f)
  | .body during => bodyTurn during s
  | .service => serviceTurn s
  | .contend w f => contendTurn w f s
  | .env e => finish (envStep e s)
  | .rst => .next s.afterRst
  | .issue w => runWord w s

/-- The start of a step: the schedule moves on and the last step's report is gone. -/
def State.begin (rest : List Turn) (s : State) : State :=
  { s with sched := rest, report := Report.quiet }

/-- One step: the next turn, or what the block does by itself. -/
def takeStep (s : State) : Result :=
  match s.sched with
  | [] => idleTurn (s.begin [])
  | t :: rest => runTurn t (s.begin rest)

/-- Places an operation word where the next step takes it from. -/
def State.placeWord (w : OpWord) (s : State) : State := { s with sched := .issue w :: s.sched }

end Sys2Proof.Machine
end

