-- ==== Sys2Proof/Machine/Step.lean ====
section
/-! DEFINITION. The step of the machine, and the placing of a word where the step takes its next operation. -/

namespace Sys2Proof.Machine

/-- One step of the machine. -/
def step (s : State) : Host.Outcome State Fault Refusal := takeStep s

/-- The same state with the operation word of value `w` (the bits above `nbits` zero) issued next (log
entry 2): the very next step decodes it and runs it. -/
def State.withFetchWord (s : State) (nbits w : Nat) : State :=
  s.placeWord (BitVec.ofNat 8 (w % 2 ^ nbits))

end Sys2Proof.Machine
end

