-- ==== Sys2Proof/Machine/Trace.lean ====
section
/-! DEFINITION. The trace forms of `30_encoding.md` R99 and its pseudo-operations (R101 to R103), as turns. They
are schedules for claims and tests, not rules about what can happen (R101). -/

namespace Sys2Proof.Machine

/-- `HOST: INIT`. -/
def Trace.init : List Turn := [.cmd (encode .init) 0]

/-- `HOST: SUBMIT <frame>`, with nothing between its two steps or inside its copy. -/
def Trace.submit (f : Frame) : List Turn := [.cmd (encode .submit) (frameBits f), .body []]

/-- `HOST: RECEIVE`, with nothing between its two steps or inside its copy. -/
def Trace.receive : List Turn := [.cmd (encode .receive) 0, .body []]

/-- A change of the line with the service of its edge at once. -/
def Trace.edge (v : Bool) : List Turn := [.env (.sel v), .service]

/-- One exchange of a frame cycle (R101): the TX steps that are enabled (the others change nothing), the
exchange, the RX step. -/
def Trace.exchange (c : Config) (m : Byte) : List Turn :=
  List.replicate c.frameSize (.env .txByte) ++ [.env (.xchg m), .env .rxByte]

/-- `XFER_CYCLE(m)` (R101). -/
def Trace.xferCycle (c : Config) (m : List Byte) : List Turn :=
  Trace.edge true ++ m.flatMap (Trace.exchange c) ++ Trace.edge false

/-- `EDGE_PAIR` (R102); it needs `LINK_PHASE = ACTIVE` before it. -/
def Trace.edgePair : List Turn := Trace.edge false ++ Trace.edge true

/-- One round of `POLL` (R103); the caller repeats it until the size is `FRAME_SIZE`. -/
def Trace.pollOnce : List Turn := Trace.receive

end Sys2Proof.Machine
end

