-- ==== Sys2Proof/Safety.lean ====
section
/-! DEFINITION. What claims speak of: the invariant of the machine, the two rings as queues of frames, what a faulted
run is, and the hazards and premises of `70_reset_and_hazards.md` and `45_environment.md` that a run may be
asked to respect. -/

namespace Sys2Proof.Machine

/-- U3 (`93_implementation_defined.md`): a run is faulted once an edge was lost (R25, R147). The rules
still define every step, so the machine goes on. -/
def State.faulted (s : State) : Bool := s.syncFault

/-- Turns the spec's agents take: every turn but one operation word issued alone (log entry 2). -/
def Turn.isAgents : Turn → Bool
  | .issue _ => false
  | .cmd _ _ => true
  | .body _ => true
  | .service => true
  | .contend _ _ => true
  | .env _ => true
  | .rst => true

/-- R31: the ring registers stay in their ranges. -/
structure State.RingsOk (s : State) : Prop where
  outCount : s.outCount ≤ s.cfg.capacity
  inCount : s.inCount ≤ s.cfg.capacity
  outCursor : s.outCursor < s.cfg.capacity
  inCursor : s.inCursor < s.cfg.capacity

/-- R35 with R27, R31 and `90_conflicts.md` C9: the bindings, whenever `INITED = 1`. -/
structure State.BindingsOk (s : State) : Prop where
  rxLen : s.rxLen = s.cfg.frameSize
  txLen : s.txLen = s.cfg.frameSize
  rxAddr : s.rxAddr = slotAddr s.cfg s.cfg.inBase s.inCursor
  txAddr : s.txAddr = s.cfg.zeroBase ∨
    s.txAddr = slotAddr s.cfg s.cfg.outBase s.boundTxSlot
  rxRemain : s.rxRemain ≤ s.cfg.frameSize
  txRemain : s.txRemain ≤ s.cfg.frameSize

/-- R26, R180: the domain is held between steps exactly by a host operation in progress. -/
structure State.HostOk (s : State) : Prop where
  held_lock : s.hseq = .held → s.lock = true
  lock_held : s.lock = true → s.hseq = .held
  held_inited : s.hseq = .held → s.inited = true
  frame : s.hcmd.frame.length = s.cfg.frameSize
  respFrame : s.respFrame.length = s.cfg.frameSize
  respSize : s.respSize = 0 ∨ s.respSize = s.cfg.frameSize

/-- R21, R42, R157, R241: before `INIT` nothing is pending, held or enabled. -/
structure State.QuietBeforeInit (s : State) : Prop where
  linkPhase : s.linkPhase = .idle
  pendA : s.pendA = false
  pendD : s.pendD = false
  rxTrigEn : s.rxTrigEn = false
  txTrigEn : s.txTrigEn = false

/-- R40, R198, R199: the queues hold at most their depths. -/
structure State.QueuesOk (s : State) : Prop where
  rxq : s.rxq.length ≤ s.cfg.rxqDepth
  txq : s.txq.length ≤ s.cfg.txqDepth

/-- The canonical form of memory, and R61, R63: only bytes of `OUT` and `IN` are ever written. -/
structure State.MemoryOk (s : State) : Prop where
  canonical : Memory.wf s.mem
  inRings : ∀ c ∈ s.mem, s.cfg.inOut c.1 = true ∨ s.cfg.inIn c.1 = true

/-- R20, R7: the binding registers fit their widths (the other registers do by `RingsOk`). -/
structure State.WidthsOk (s : State) : Prop where
  rxAddr : s.rxAddr < 2 ^ s.cfg.addrW
  txAddr : s.txAddr < 2 ^ s.cfg.addrW
  rxLen : s.rxLen ≤ s.cfg.frameSize
  txLen : s.txLen ≤ s.cfg.frameSize

/-- The invariant every step of the spec's agents keeps. -/
structure State.Inv (s : State) : Prop where
  cfg : s.cfg.wf = true
  rings : s.RingsOk
  bindings : s.inited = true → s.BindingsOk
  host : s.HostOk
  quiet : s.inited = false → s.QuietBeforeInit
  phase : s.inited = true → s.linkPhase = LinkPhase.ofLevel s.sel
  queues : s.QueuesOk
  memory : s.MemoryOk
  widths : s.WidthsOk
  agents : ∀ t ∈ s.sched, t.isAgents = true

/-- R146, R147, R148 (derived there): while no edge was lost, a single pending bit is that of the last
edge, whose level `LINK_PHASE` holds. -/
def State.EdgesInOrder (s : State) : Prop :=
  s.syncFault = false →
    (s.pendA = true → s.pendD = false → s.linkPhase = .active) ∧
    (s.pendD = true → s.pendA = false → s.linkPhase = .idle)

/-- R28: the address of the `k`-th stored outbound frame, oldest first. -/
def State.outSlotAddr (s : State) (k : Nat) : Nat :=
  slotAddr s.cfg s.cfg.outBase ((s.outCursor + k) % s.cfg.capacity)

/-- R28: the stored outbound frames, oldest first. -/
def State.outQueue (s : State) : List Frame :=
  (List.range s.outCount).map (fun k => s.readBytes (s.outSlotAddr k) s.cfg.frameSize)

/-- R30: the address of the `k`-th stored inbound frame, oldest first. -/
def State.inSlotAddr (s : State) (k : Nat) : Nat :=
  slotAddr s.cfg s.cfg.inBase ((s.inCursor + s.cfg.capacity - s.inCount + k) % s.cfg.capacity)

/-- R30: the stored inbound frames, oldest first. -/
def State.inQueue (s : State) : List Frame :=
  (List.range s.inCount).map (fun k => s.readBytes (s.inSlotAddr k) s.cfg.frameSize)

/-- The frame the TX channel is bound to (R33). -/
def State.boundOutFrame (s : State) : Frame := s.readBytes s.txAddr s.cfg.frameSize

/-- The frame in the slot the RX channel is bound to (R32). -/
def State.boundInFrame (s : State) : Frame := s.readBytes s.rxAddr s.cfg.frameSize

/-- H4 (R249): the next `ENQUEUE` would write the slot the TX channel is bound to. -/
def State.submitTouchesBoundSlot (s : State) : Bool :=
  decide (s.outCount + 1 = s.cfg.capacity) && !(s.txAddr == s.cfg.zeroBase)

/-- H5 (R250): the next `DEQUEUE` would read the slot the RX channel is bound to. -/
def State.receiveTouchesBoundSlot (s : State) : Bool := decide (s.inCount = s.cfg.capacity)

/-- R244: what the peripheral's set-up before `INIT` leaves in the queues. -/
def State.readyForInit (s : State) : Bool := s.rxqEmpty && s.txqEmpty

/-- The steps of other agents that fall inside the frame copy of an operation (R79): those of `during`, when the
operation copies a frame; none when it copies nothing (log entry 12). -/
def State.copySteps (i : Instr) (during : List (List EnvStep)) (s : State) : List EnvStep :=
  let enqueues := s.lock && !decide (s.outCount = s.cfg.capacity)
  let dequeues := s.lock && !decide (s.inCount = 0)
  match i with
  | .enqueue => if enqueues then during.flatten else []
  | .dequeue => if dequeues then during.flatten else []
  | .submit =>
    if enqueues && decide (s.hseq = .held) && decide (s.hcmd.op = .submit) then during.flatten else []
  | .receive =>
    if dequeues && decide (s.hseq = .held) && decide (s.hcmd.op = .receive) then during.flatten else []
  | .init => []
  | .selAssert => []
  | .selDeassert => []
  | .xdAcquire => []
  | .xdRelease => []
  | .tryReserveOut => []
  | .advanceIn => []
  | .rearm => []
  | .haltEngine => []
  | .drainRxq => []
  | .setTrig _ _ => []

/-- Every step of an agent outside the block that the next step of the machine contains, in order: its own
turn, or the steps inside a frame copy. -/
def State.nextEnvSteps (s : State) : List EnvStep :=
  match s.sched with
  | .env e :: _ => [e]
  | .body during :: _ => s.copySteps s.hcmd.op.instr during
  | .issue w :: _ =>
    match decode w with
    | .ok i => s.copySteps i s.during
    | .error _ => []
  | .cmd _ _ :: _ => []
  | .service :: _ => []
  | .contend _ _ :: _ => []
  | .rst :: _ => []
  | [] => []

/-- Does each of the steps, in the state in which it falls, satisfy `p`? The bytes a copy moves between them
are left out: they change memory alone, and no premise below reads memory. -/
def stepsRespect (p : EnvStep → State → Bool) : List EnvStep → State → Bool
  | [], _ => true
  | e :: es, s =>
    p e s &&
      match envStep e s with
      | .ok s' => stepsRespect p es s'
      | .error _ => true

/-- R201, the premise `NoIdlePrefetch` for the next step: no `ENGINE_TX: BYTE` step is taken while `SEL = 0`,
be it a turn or inside a frame copy. A step whose guard is false is not taken (log entry 3). -/
def State.noIdlePrefetch (s : State) : Bool :=
  stepsRespect (fun e u => !decide (e = .txByte) || u.sel || !u.txReady) s.nextEnvSteps s

/-- Does this step drive the line to the level asserted? -/
def EnvStep.asserts (c : Config) : EnvStep → Bool
  | .sel v => v
  | .pin level => logicalLevel c level
  | .xchg _ => false
  | .txByte => false
  | .rxByte => false

/-- Is this step a byte exchange of the master? -/
def EnvStep.isXchg : EnvStep → Bool
  | .xchg _ => true
  | .sel _ => false
  | .pin _ => false
  | .txByte => false
  | .rxByte => false

/-- H1 (R246) for the next step: the master does not assert the line while a deassert is pending, be it by a
turn or inside a frame copy. -/
def State.leavesLineDeasserted (s : State) : Bool :=
  stepsRespect (fun e u => !(e.asserts u.cfg && u.pendD)) s.nextEnvSteps s

/-- What H1 (R246) protects, for the next step: the master clocks no byte while a deassert is pending, be it
by a turn or inside a frame copy. An exchange while the line is deasserted is not taken (R192). -/
def State.masterWaited (s : State) : Bool :=
  stepsRespect (fun e u => !(e.isXchg && u.sel && u.pendD)) s.nextEnvSteps s

/-- R203: where a clean frame cycle starts: idle, nothing pending, nothing held, both enables on, both
channels loaded, both queues empty. -/
structure State.CleanIdle (s : State) : Prop where
  inited : s.inited = true
  unlocked : s.lock = false
  idle : s.hseq = .idle
  phase : s.linkPhase = .idle
  noPendA : s.pendA = false
  noPendD : s.pendD = false
  rxOn : s.rxTrigEn = true
  txOn : s.txTrigEn = true
  rxLoaded : s.rxRemain = s.cfg.frameSize
  txLoaded : s.txRemain = s.cfg.frameSize
  rxqEmpty : s.rxq = []
  txqEmpty : s.txq = []

/-- The registers `DETECT` writes (R20, R146), which the master can make happen inside a frame copy. -/
def detectorRegs : List Reg := [.linkPhase, .pendA, .pendD, .syncFault]

end Sys2Proof.Machine

namespace Sys2Proof

/-- R20, column "written by", closed under the expansions of R98 and with the pending bits an event's
service clears: which registers an operation may write. -/
def Instr.mayWrite : Instr → List Machine.Reg
  | .init => [.inited, .linkPhase, .pendA, .pendD, .outCursor, .outCount, .inCursor, .inCount,
      .rxAddr, .rxLen, .txAddr, .txLen, .rxTrigEn, .txTrigEn]
  | .submit => [.lock, .hseq, .hcmd, .outCount]
  | .receive => [.lock, .hseq, .hcmd, .inCount]
  | .selAssert => [.pendA, .rxTrigEn, .txTrigEn]
  | .selDeassert => [.pendD, .lock, .outCursor, .outCount, .inCursor, .inCount, .rxAddr, .rxLen,
      .txAddr, .txLen, .rxTrigEn, .txTrigEn]
  | .xdAcquire => [.lock]
  | .xdRelease => [.lock]
  | .enqueue => [.outCount]
  | .dequeue => [.inCount]
  | .tryReserveOut => [.outCursor, .outCount]
  | .advanceIn => [.inCursor, .inCount]
  | .rearm => [.lock, .outCursor, .outCount, .inCursor, .inCount, .rxAddr, .rxLen, .txAddr, .txLen]
  | .haltEngine => [.rxTrigEn, .txTrigEn]
  | .drainRxq => []
  | .setTrig _ _ => [.rxTrigEn, .txTrigEn]

end Sys2Proof
end

