-- ==== Sys2Proof/Certificates/Slice0/Obligations.lean ====
section
/-! DEFINITION. The statements for the provers. Each docstring names the rules of `spec/` it formalises. Where a
statement gives a next state as one update of `s`, everything the update does not name is unchanged: that is
the statement's frame. The fields `report`, `during`, `sched`, `epoch`, `draws` and `cfg` are the model's own
(log entries 1, 2, 10, 11, 12, 17). -/

open Sys2Proof Sys2Proof.Machine

/-! ## The operation word -/

/-- R93: the fifteen operations and their eighteen words. -/
def Obligations.OpcodeMapWords : Prop :=
  decode 0x04 = .ok .init ∧ decode 0x08 = .ok .submit ∧ decode 0x0C = .ok .receive ∧
  decode 0x44 = .ok .selAssert ∧ decode 0x48 = .ok .selDeassert ∧
  decode 0x80 = .ok .xdAcquire ∧ decode 0x84 = .ok .xdRelease ∧
  decode 0x88 = .ok .enqueue ∧ decode 0x8C = .ok .dequeue ∧
  decode 0x90 = .ok .tryReserveOut ∧ decode 0x94 = .ok .advanceIn ∧
  decode 0x98 = .ok .rearm ∧ decode 0x9C = .ok .haltEngine ∧ decode 0xA0 = .ok .drainRxq ∧
  decode 0xA4 = .ok (.setTrig false false) ∧ decode 0xA5 = .ok (.setTrig false true) ∧
  decode 0xA6 = .ok (.setTrig true false) ∧ decode 0xA7 = .ok (.setTrig true true) ∧
  ((List.range 256).filter fun n => (decode (BitVec.ofNat 8 n)).toOption.isSome).length = 18

/-- R96: which words are reserved, and how many. -/
def Obligations.ReservedWordsExactly : Prop :=
  (∀ w : OpWord, (decode w).toOption = none ↔
    opClass w = 3 ∨
    (opClass w = 0 ∧ opNumber w ≠ 1 ∧ opNumber w ≠ 2 ∧ opNumber w ≠ 3) ∨
    (opClass w = 1 ∧ opNumber w ≠ 1 ∧ opNumber w ≠ 2) ∨
    (opClass w = 2 ∧ 9 < opNumber w) ∨
    (opArg w ≠ 0 ∧ ¬ (opClass w = 2 ∧ opNumber w = 9))) ∧
  ((List.range 256).filter fun n => (decode (BitVec.ofNat 8 n)).toOption.isNone).length = 238

/-- R91, R93, R97: decode and encode agree, in both directions and with whatever bytes follow. -/
def Obligations.DecodeEncodeAgree : Prop :=
  (∀ (i : Instr) (rest : List Byte), i.wf = true →
    decodeBytes (encodeBytes i ++ rest) = .ok (i, rest)) ∧
  (∀ (w : OpWord) (i : Instr), decode w = .ok i → encode i = w) ∧
  (∀ i : Instr, i.wf = true → decodeTableWord 8 (encode i).toNat = some i)

/-! ## The step -/

/-- A word issued alone is decoded and run, in the state whose schedule has moved on and whose report is quiet. That
a word can be issued alone is the model's own turn (DESIGN CHOICE, log entry 2), by which a single operation is
run; the hardware issues an `EVENT` or `MICRO` word only by a service or inside an expansion. Of the spec, only
the decoding of the word (R97) stands behind it. -/
def Obligations.StepRunsTheDecodedWord : Prop :=
  (∀ (s : State) (w : OpWord) (rest : List Turn) (i : Instr),
    s.sched = .issue w :: rest → decode w = .ok i →
    step s = exec i { s with sched := rest, report := Report.quiet }) ∧
  (∀ (s : State) (i : Instr),
    step (s.withFetchWord 8 (encode i).toNat) = exec i { s with report := Report.quiet })

/-- R92, R97, R169: with no host operation in progress, the host's word is decoded and, if it is of format
`HOST`, run with the frame on the port. -/
def Obligations.StepRunsTheHostCommand : Prop :=
  ∀ (s : State) (w : OpWord) (f : Nat) (rest : List Turn) (i : Instr),
    s.sched = .cmd w f :: rest → s.hseq = .idle → decode w = .ok i → i.format = .host →
    step s = exec i { s with sched := rest, report := Report.quiet, cmd := w, cmdFrame := f }

/-- R170: the three kinds of refused command, whether or not a host operation is held. -/
def Obligations.RefusedCommands : Prop :=
  ∀ (s : State) (w : OpWord) (f : Nat) (rest : List Turn), s.sched = .cmd w f :: rest →
    (s.inited = false → w = 0x08 → step s = .refused (.beforeInit "SUBMIT")) ∧
    (s.inited = false → w = 0x0C → step s = .refused (.beforeInit "RECEIVE")) ∧
    (s.inited = true → w = 0x04 → step s = .refused .secondInit) ∧
    (w ≠ 0x04 → w ≠ 0x08 → w ≠ 0x0C →
      ((decode w).toOption = none → step s = .refused (.reservedWord w)) ∧
      ((decode w).toOption ≠ none → step s = .refused (.notHostWord w)))

/-- While a host operation is held no command is accepted: a `SUBMIT` or `RECEIVE` (after `INIT`), or an `INIT`
(before one), leaves everything but the input signals as it was and is not remembered. R169 and vector H11 say
not accepted; R97, R170, H9 and H10 say which words are refused, without a condition on `HSEQ`. That the model
refuses those (`RefusedCommands`) and lets the others pass without effect is its reading (DEDUCED, log entry 25). -/
def Obligations.NoCommandWhileHeld : Prop :=
  ∀ (s : State) (w : OpWord) (f : Nat) (rest : List Turn),
    s.sched = .cmd w f :: rest → s.hseq = .held →
    (s.inited = true ∧ (w = 0x08 ∨ w = 0x0C)) ∨ (s.inited = false ∧ w = 0x04) →
    step s = .next { s with sched := rest, report := Report.quiet, cmd := w, cmdFrame := f }

/-- R220 (with R148): the service step takes the older pending event, told by `LINK_PHASE`, and runs its handler;
neither event has a fixed priority. -/
def Obligations.ServiceTakesTheOlderEvent : Prop :=
  ∀ (s : State) (rest : List Turn), s.sched = .service :: rest →
    (s.inited = true → s.lock = false → s.pendA = true → s.pendD = true → s.linkPhase = .active →
      step s = exec .selDeassert { s with sched := rest, report := Report.quiet }) ∧
    (s.inited = true → s.lock = false → s.pendA = true → s.pendD = true → s.linkPhase = .idle →
      step s = exec .selAssert { s with sched := rest, report := Report.quiet }) ∧
    (s.inited = true → s.lock = false → s.pendA = false → s.pendD = true →
      step s = exec .selDeassert { s with sched := rest, report := Report.quiet }) ∧
    (s.inited = true → s.lock = false → s.pendA = true → s.pendD = false →
      step s = exec .selAssert { s with sched := rest, report := Report.quiet })

/-- R259 (and R148, R168): with no turn left an enabled service step is taken, else an enabled `.body` step,
else nothing happens (R241). That an empty schedule means this is the model's choice, log entry 16. -/
def Obligations.BlockGoesOnByItself : Prop :=
  ∀ s : State, s.sched = [] →
    (s.serviceChoice = some .asserted → step s = exec .selAssert { s with report := Report.quiet }) ∧
    (s.serviceChoice = some .deasserted → step s = exec .selDeassert { s with report := Report.quiet }) ∧
    (s.serviceChoice = none → s.hseq = .held → s.lock = true → s.hcmd.op = .submit →
      step s = exec .submit { s with report := Report.quiet, during := [] }) ∧
    (s.serviceChoice = none → s.hseq = .held → s.lock = true → s.hcmd.op = .receive →
      step s = exec .receive { s with report := Report.quiet, during := [] }) ∧
    (s.serviceChoice = none → s.hseq = .idle → step s = .next { s with report := Report.quiet })

/-- R171, R221: a service step and a command in the same instant: the service step is granted first and the
command follows; with no service step enabled the command is taken as it comes. -/
def Obligations.EventGoesBeforeCommand : Prop :=
  ∀ (s : State) (w : OpWord) (f : Nat) (rest : List Turn), s.sched = .contend w f :: rest →
    (s.serviceChoice = some .asserted →
      step s = exec .selAssert { s with sched := .cmd w f :: rest, report := Report.quiet }) ∧
    (s.serviceChoice = some .deasserted →
      step s = exec .selDeassert { s with sched := .cmd w f :: rest, report := Report.quiet }) ∧
    (s.serviceChoice = none → step s = step { s with sched := .cmd w f :: rest })

/-- R168: the host's second step runs the held operation, with what other agents do inside its copy. -/
def Obligations.BodyStepRunsTheHeldOperation : Prop :=
  ∀ (s : State) (d : List (List EnvStep)) (rest : List Turn), s.sched = .body d :: rest →
    (s.hseq = .held → s.lock = true → s.hcmd.op = .submit →
      step s = exec .submit { s with sched := rest, report := Report.quiet, during := d }) ∧
    (s.hseq = .held → s.lock = true → s.hcmd.op = .receive →
      step s = exec .receive { s with sched := rest, report := Report.quiet, during := d })

/-! ## The edge detector and the exclusion domain -/

/-- R146, R147, R157: `DETECT`, fused with the master's change of the line. -/
def Obligations.DetectLatchesEdges : Prop :=
  ∀ (s : State) (v : Bool) (rest : List Turn), s.sched = .env (.sel v) :: rest →
    (s.inited = false →
      step s = .next { s with sched := rest, report := Report.quiet, sel := v }) ∧
    (s.inited = true → s.linkPhase = LinkPhase.ofLevel v →
      step s = .next { s with sched := rest, report := Report.quiet, sel := v }) ∧
    (s.inited = true → s.linkPhase = .idle → v = true → s.pendA = false →
      step s = .next { s with
        sched := rest, report := Report.quiet, sel := true, linkPhase := .active, pendA := true }) ∧
    (s.inited = true → s.linkPhase = .active → v = false → s.pendD = false →
      step s = .next { s with
        sched := rest, report := Report.quiet, sel := false, linkPhase := .idle, pendD := true }) ∧
    (s.inited = true → s.linkPhase = .idle → v = true → s.pendA = true →
      step s = .next { s with
        sched := rest, report := { Report.quiet with conds := [.syncFault] }, sel := true,
        linkPhase := .active, syncFault := true }) ∧
    (s.inited = true → s.linkPhase = .active → v = false → s.pendD = true →
      step s = .next { s with
        sched := rest, report := { Report.quiet with conds := [.syncFault] }, sel := false,
        linkPhase := .idle, syncFault := true })

/-- R182: `LOCK = 1` disables the service step and so every handler, and withholds nothing else: each step of
the master (with its `DETECT`) and of the channels does the same whatever `LOCK` is. -/
def Obligations.LockWithholdsOnlyTheHandler : Prop :=
  (∀ (s : State) (rest : List Turn), s.lock = true → s.sched = .service :: rest →
    step s = .next { s with sched := rest, report := Report.quiet }) ∧
  (∀ s t : State, s.lock = true →
    exec .selAssert s ≠ .next t ∧ exec .selDeassert s ≠ .next t ∧ exec .rearm s ≠ .next t) ∧
  (∀ (e : EnvStep) (s t : State) (b : Bool), envStep e s = .ok t →
    envStep e { s with lock := b } = .ok { t with lock := b })

/-- R180: `XD_ACQUIRE` sets `LOCK`, under its guard, and changes nothing else. -/
def Obligations.AcquireSetsLock : Prop :=
  ∀ s : State,
    (s.lock = false → exec .xdAcquire s = .next { s with lock := true }) ∧
    (∀ t, s.lock = true → exec .xdAcquire s ≠ .next t)

/-- R181: `XD_RELEASE` clears `LOCK`, under its guard, changes nothing else, and makes the service of a
pending event enabled. -/
def Obligations.ReleaseClearsLock : Prop :=
  ∀ s : State,
    (s.lock = true → exec .xdRelease s = .next { s with lock := false }) ∧
    (∀ t, s.lock = false → exec .xdRelease s ≠ .next t) ∧
    (s.inited = true → s.pendA = true ∨ s.pendD = true →
      State.serviceChoice { s with lock := false } ≠ none)

/-! ## The host operations -/

/-- R165: what `INIT` writes, and that a second one is refused. -/
def Obligations.InitPrimesTheBlock : Prop :=
  ∀ s : State,
    (s.inited = false → s.hseq = .idle →
      exec .init s = .next { s with
        outCursor := 0
        outCount := 0
        inCursor := 0
        inCount := 0
        rxAddr := s.cfg.inBase + 0 * s.cfg.frameSize
        rxLen := s.cfg.frameSize
        rxRemain := s.cfg.frameSize
        txAddr := s.cfg.zeroBase
        txLen := s.cfg.frameSize
        txRemain := s.cfg.frameSize
        rxTrigEn := true
        txTrigEn := true
        linkPhase := if s.sel then .active else .idle
        pendA := false
        pendD := false
        inited := true
        report := { s.report with rxLoad := true, txLoad := true } }) ∧
    (s.inited = true → exec .init s = .refused .secondInit)

/-- R166: the two steps of `SUBMIT`; nothing else happens inside its copy (`during = []`; with other agents'
steps inside it see `SubmitRunsUnderAnyInterleaving`). -/
def Obligations.SubmitAcquiresThenStoresOrDrops : Prop :=
  (∀ s : State, s.inited = true → s.hseq = .idle → s.lock = false →
    exec .submit s = .next { s with
      hcmd := { op := .submit, frame := portFrame s.cfg.frameSize s.cmdFrame }
      lock := true
      hseq := .held }) ∧
  (∀ s : State, s.cfg.wf = true → s.hseq = .held → s.hcmd.op = .submit → s.lock = true →
    s.hcmd.frame.length = s.cfg.frameSize → s.during = [] → s.outCount ≠ s.cfg.capacity →
    ∃ t, exec .submit s = .next t ∧
      t = { s with mem := t.mem, outCount := s.outCount + 1, lock := false, hseq := .idle } ∧
      t.readBytes (s.cfg.outBase + (s.outCursor + s.outCount) % s.cfg.capacity * s.cfg.frameSize)
        s.cfg.frameSize = s.hcmd.frame ∧
      ∀ a : Nat,
        (a < s.cfg.outBase + (s.outCursor + s.outCount) % s.cfg.capacity * s.cfg.frameSize ∨
          s.cfg.outBase + (s.outCursor + s.outCount) % s.cfg.capacity * s.cfg.frameSize +
            s.cfg.frameSize ≤ a) →
        t.readByte a = s.readByte a) ∧
  (∀ s : State, s.hseq = .held → s.hcmd.op = .submit → s.lock = true →
    s.outCount = s.cfg.capacity →
    exec .submit s = .next { s with
      lock := false
      hseq := .idle
      during := []
      report := { s.report with conds := s.report.conds ++ [.outboundOverflow] } })

/-- R167: the two steps of `RECEIVE`; nothing else happens inside its copy (`during = []`; otherwise see
`ReceiveRunsUnderAnyInterleaving`). `RECEIVE` has no operand, so of `HCMD` only the operation is stated. -/
def Obligations.ReceiveAcquiresThenReturnsOldest : Prop :=
  (∀ s : State, s.inited = true → s.hseq = .idle → s.lock = false →
    ∃ t, exec .receive s = .next t ∧
      t = { s with hcmd := t.hcmd, lock := true, hseq := .held } ∧ t.hcmd.op = .receive) ∧
  (∀ s : State, s.cfg.wf = true → s.hseq = .held → s.hcmd.op = .receive → s.lock = true →
    s.during = [] → 0 < s.inCount → s.inCount ≤ s.cfg.capacity →
    exec .receive s = .next { s with
      inCount := s.inCount - 1
      respSize := s.cfg.frameSize
      respFrame := s.readBytes
        (s.cfg.inBase +
          (((s.inCursor : Int) - s.inCount + s.cfg.capacity) % s.cfg.capacity).toNat *
            s.cfg.frameSize)
        s.cfg.frameSize
      lock := false
      hseq := .idle }) ∧
  (∀ s : State, s.hseq = .held → s.hcmd.op = .receive → s.lock = true → s.inCount = 0 →
    exec .receive s = .next { s with
      respSize := 0
      lock := false
      hseq := .idle
      during := []
      report := { s.report with conds := s.report.conds ++ [.inboundUnderflow] } })

/-- R168, R184: no other agent can keep a host operation from ending: presented while idle, it ends in its two
steps, and the domain is free again. -/
def Obligations.HostOperationEndsInTwoSteps : Prop :=
  ∀ (s : State) (w : OpWord) (f : Nat) (d : List (List EnvStep)) (rest : List Turn),
    s.Inv → s.inited = true → s.hseq = .idle → (w = 0x08 ∨ w = 0x0C) →
    s.sched = .cmd w f :: .body d :: rest →
    ∃ u t, step s = .next u ∧ u.hseq = .held ∧ u.lock = true ∧
      step u = .next t ∧ t.hseq = .idle ∧ t.lock = false ∧ t.sched = rest

/-! ## The ring pointer operations -/

/-- R111: `ENQUEUE`, with nothing else happening inside its copy. -/
def Obligations.EnqueueStoresOrDrops : Prop :=
  (∀ s : State, s.cfg.wf = true → s.lock = true → s.hcmd.frame.length = s.cfg.frameSize →
    s.during = [] → s.outCount ≠ s.cfg.capacity →
    ∃ t, exec .enqueue s = .next t ∧
      t = { s with
        mem := t.mem
        outCount := s.outCount + 1
        report := { s.report with result := .ok true } } ∧
      t.readBytes (s.cfg.outBase + (s.outCursor + s.outCount) % s.cfg.capacity * s.cfg.frameSize)
        s.cfg.frameSize = s.hcmd.frame ∧
      ∀ a : Nat,
        (a < s.cfg.outBase + (s.outCursor + s.outCount) % s.cfg.capacity * s.cfg.frameSize ∨
          s.cfg.outBase + (s.outCursor + s.outCount) % s.cfg.capacity * s.cfg.frameSize +
            s.cfg.frameSize ≤ a) →
        t.readByte a = s.readByte a) ∧
  (∀ s : State, s.lock = true → s.outCount = s.cfg.capacity →
    exec .enqueue s = .next { s with
      during := []
      report := { s.report with
        conds := s.report.conds ++ [.outboundOverflow]
        result := .ok false } }) ∧
  (∀ s t : State, s.lock = false → exec .enqueue s ≠ .next t)

/-- R112: `DEQUEUE`, with nothing else happening inside its copy. -/
def Obligations.DequeueReturnsOldestOrNone : Prop :=
  (∀ s : State, s.cfg.wf = true → s.lock = true → s.during = [] → 0 < s.inCount →
    s.inCount ≤ s.cfg.capacity →
    exec .dequeue s = .next { s with
      inCount := s.inCount - 1
      report := { s.report with
        result := .frame (some (s.readBytes
          (s.cfg.inBase +
            (((s.inCursor : Int) - s.inCount + s.cfg.capacity) % s.cfg.capacity).toNat *
              s.cfg.frameSize)
          s.cfg.frameSize)) } }) ∧
  (∀ s : State, s.lock = true → s.inCount = 0 →
    exec .dequeue s = .next { s with
      during := []
      report := { s.report with
        conds := s.report.conds ++ [.inboundUnderflow]
        result := .frame none } }) ∧
  (∀ s t : State, s.lock = false → exec .dequeue s ≠ .next t)

/-- R113: `TRY_RESERVE_OUT`. -/
def Obligations.ReserveTakesOldestSlotOrNone : Prop :=
  ∀ s : State,
    (s.lock = true → 0 < s.outCount →
      exec .tryReserveOut s = .next { s with
        outCursor := (s.outCursor + 1) % s.cfg.capacity
        outCount := s.outCount - 1
        report := { s.report with result := .slot (some s.outCursor) } }) ∧
    (s.lock = true → s.outCount = 0 →
      exec .tryReserveOut s = .next { s with
        report := { s.report with
          conds := s.report.conds ++ [.outboundEmpty]
          result := .slot none } }) ∧
    (∀ t, s.lock = false → exec .tryReserveOut s ≠ .next t)

/-- R114: `ADVANCE_IN`: the cursor advances in both cases, the count saturates. -/
def Obligations.AdvanceInSaturatesAndMoves : Prop :=
  ∀ s : State,
    (s.lock = true → s.inCount ≠ s.cfg.capacity →
      exec .advanceIn s = .next { s with
        inCount := s.inCount + 1
        inCursor := (s.inCursor + 1) % s.cfg.capacity }) ∧
    (s.lock = true → s.inCount = s.cfg.capacity →
      exec .advanceIn s = .next { s with
        inCursor := (s.inCursor + 1) % s.cfg.capacity
        report := { s.report with conds := s.report.conds ++ [.inboundOverflow] } }) ∧
    (∀ t, s.lock = false → exec .advanceIn s ≠ .next t)

/-! ## The engine -/

/-- R130: `REARM`: both pointer operations, both bindings with their loads; the conditions of both rings in
one call (R222). -/
def Obligations.RearmAdvancesAndBinds : Prop :=
  ∀ s : State,
    (s.lock = false → s.inited = true →
      exec .rearm s = .next { s with
        inCount := if s.inCount = s.cfg.capacity then s.inCount else s.inCount + 1
        inCursor := (s.inCursor + 1) % s.cfg.capacity
        rxAddr := s.cfg.inBase + (s.inCursor + 1) % s.cfg.capacity * s.cfg.frameSize
        rxLen := s.cfg.frameSize
        rxRemain := s.cfg.frameSize
        outCursor := if 0 < s.outCount then (s.outCursor + 1) % s.cfg.capacity else s.outCursor
        outCount := if 0 < s.outCount then s.outCount - 1 else 0
        txAddr := if 0 < s.outCount then s.cfg.outBase + s.outCursor * s.cfg.frameSize
          else s.cfg.zeroBase
        txLen := s.cfg.frameSize
        txRemain := s.cfg.frameSize
        report := { s.report with
          rxLoad := true
          txLoad := true
          conds := s.report.conds ++
            ((if s.inCount = s.cfg.capacity then [.inboundOverflow] else []) ++
             (if 0 < s.outCount then [] else [.outboundEmpty])) } }) ∧
    (∀ t, s.lock = true ∨ s.inited = false → exec .rearm s ≠ .next t)

/-- R151: `HALT_ENGINE`: both enables 0, both channels aborted; after it neither channel moves a byte. -/
def Obligations.HaltStopsBothChannels : Prop :=
  ∀ s : State,
    exec .haltEngine s = .next { s with
      rxTrigEn := false
      txTrigEn := false
      rxRemain := 0
      txRemain := 0
      report := { s.report with rxAbort := true, txAbort := true } } ∧
    ∀ t : State, exec .haltEngine s = .next t →
      envStep .txByte t = .ok t ∧ envStep .rxByte t = .ok t

/-- R152: `DRAIN_RXQ`: one pop pulse for each byte of `RXQ`, all discarded. -/
def Obligations.DrainEmptiesReceiveQueue : Prop :=
  ∀ s : State,
    exec .drainRxq s = .next { s with
      rxq := []
      report := { s.report with rxqPops := s.report.rxqPops + s.rxq.length } }

/-- R153, R94: `SET_TRIG t r` writes both enables, each to the given bit, whatever they were. -/
def Obligations.SetTrigWritesBothEnables : Prop :=
  ∀ (s : State) (t r : Bool),
    exec (.setTrig t r) s = .next { s with rxTrigEn := r, txTrigEn := t }

/-! ## The two handlers -/

/-- R149: `SEL_ASSERT`: the one-bit residual test decides the outbound enable; no pointer register, count or
binding moves. -/
def Obligations.AssertDefersOnStaleQueue : Prop :=
  ∀ s : State, s.serviceChoice = some .asserted →
    (s.txq = [] →
      exec .selAssert s = .next { s with pendA := false, rxTrigEn := true, txTrigEn := true }) ∧
    (s.txq ≠ [] →
      exec .selAssert s = .next { s with
        pendA := false
        rxTrigEn := true
        txTrigEn := false
        report := { s.report with conds := s.report.conds ++ [.staleTxQueue] } })

/-- R150: `SEL_DEASSERT`: halt, drain, rearm, re-enable; both enables end at 1 whatever they were. -/
def Obligations.DeassertRebuildsTheBinding : Prop :=
  ∀ s : State, s.serviceChoice = some .deasserted →
    exec .selDeassert s = .next { s with
      pendD := false
      rxq := []
      inCount := if s.inCount = s.cfg.capacity then s.inCount else s.inCount + 1
      inCursor := (s.inCursor + 1) % s.cfg.capacity
      rxAddr := s.cfg.inBase + (s.inCursor + 1) % s.cfg.capacity * s.cfg.frameSize
      rxLen := s.cfg.frameSize
      rxRemain := s.cfg.frameSize
      outCursor := if 0 < s.outCount then (s.outCursor + 1) % s.cfg.capacity else s.outCursor
      outCount := if 0 < s.outCount then s.outCount - 1 else 0
      txAddr := if 0 < s.outCount then s.cfg.outBase + s.outCursor * s.cfg.frameSize
        else s.cfg.zeroBase
      txLen := s.cfg.frameSize
      txRemain := s.cfg.frameSize
      rxTrigEn := true
      txTrigEn := true
      report := { s.report with
        rxLoad := true
        txLoad := true
        rxAbort := true
        txAbort := true
        rxqPops := s.report.rxqPops + s.rxq.length
        conds := s.report.conds ++
          ((if s.inCount = s.cfg.capacity then [.inboundOverflow] else []) ++
           (if 0 < s.outCount then [] else [.outboundEmpty])) } }

/-- Several operations one after another. -/
def runAll : List Instr → State → Result
  | [], s => .next s
  | i :: is, s =>
    match exec i s with
    | .next t => runAll is t
    | .fault r => .fault r
    | .refused r => .refused r

/-- R98: an event's handler is its expansion, run from the state in which the event is taken; a host operation's
first step runs `XD_ACQUIRE` and its second the rest of its expansion (its result inside the block discarded,
R166 (a), and `HSEQ` returned to `H_IDLE`); `REARM` is its four operations with the two binding writes between
them. -/
def Obligations.CompositesAreTheirExpansions : Prop :=
  (∀ s : State, s.serviceChoice = some .deasserted →
    exec .selDeassert s =
      runAll [.haltEngine, .drainRxq, .rearm, .setTrig true true] { s with pendD := false }) ∧
  (∀ s : State, s.serviceChoice = some .asserted → s.txq = [] →
    exec .selAssert s = runAll [.setTrig true true] { s with pendA := false }) ∧
  (∀ s : State, s.serviceChoice = some .asserted → s.txq ≠ [] →
    exec .selAssert s = runAll [.setTrig false true] { s with
      pendA := false
      report := { s.report with conds := s.report.conds ++ [.staleTxQueue] } }) ∧
  (∀ s : State, s.lock = false → s.inited = true →
    ∃ a b, runAll [.xdAcquire, .advanceIn] s = .next a ∧
      exec .tryReserveOut (State.bindRx (slotAddr a.cfg a.cfg.inBase a.inCursor) a) = .next b ∧
      ((∃ k, b.report.result = .slot (some k) ∧
        exec .rearm s = exec .xdRelease (State.bindTx (slotAddr b.cfg b.cfg.outBase k)
          (State.withResult s.report.result b))) ∨
       (b.report.result = .slot none ∧
        exec .rearm s = exec .xdRelease (State.bindTx b.cfg.zeroBase
          (State.withResult s.report.result b))))) ∧
  (∀ s : State, s.inited = true → s.hseq = .idle → s.lock = false →
    ∃ u, exec .xdAcquire s = .next u ∧
      (∃ c, exec .submit s = .next { u with hcmd := c, hseq := .held }) ∧
      (∃ c, exec .receive s = .next { u with hcmd := c, hseq := .held })) ∧
  (∀ s u : State, s.hseq = .held → s.lock = true → s.hcmd.op = .submit →
    runAll [.enqueue, .xdRelease] s = .next u →
    exec .submit s = .next { u with
      hseq := .idle
      report := { u.report with result := s.report.result } }) ∧
  (∀ s u : State, s.hseq = .held → s.lock = true → s.hcmd.op = .receive →
    runAll [.dequeue, .xdRelease] s = .next u →
    ∃ t, exec .receive s = .next t ∧
      t = { u with
        hseq := .idle
        respSize := t.respSize
        respFrame := t.respFrame
        report := { u.report with result := s.report.result } } ∧
      (∀ f, u.report.result = .frame (some f) → t.respSize = s.cfg.frameSize ∧ t.respFrame = f) ∧
      (u.report.result = .frame none → t.respSize = 0 ∧ t.respFrame = s.respFrame))

/-! ## Memory and the environment -/

/-- R60, R63: the zero frame reads as zeros in every state, and no byte store reaches it or an address that
does not exist. -/
def Obligations.ZeroFrameReadsZero : Prop :=
  ∀ (s : State) (k : Nat), k < s.cfg.frameSize →
    s.readByte (s.cfg.zeroBase + k) = 0 ∧
    (∀ (b : Byte) (t : State), s.storeByte (s.cfg.zeroBase + k) b ≠ .ok t) ∧
    (∀ (a : Nat) (b : Byte), 2 ^ s.cfg.addrW ≤ a → ∀ t, s.storeByte a b ≠ .ok t)

/-- R62, R65: under the invariant every address the block computes lies inside its region, exists, and is not
in the zero frame. -/
def Obligations.ComputedAddressesInsideRegions : Prop :=
  ∀ (s : State) (k : Nat), s.Inv → k < s.cfg.frameSize →
    s.cfg.inOut (slotAddr s.cfg s.cfg.outBase s.enqueueSlot + k) = true ∧
    s.cfg.inIn (slotAddr s.cfg s.cfg.inBase s.dequeueSlot + k) = true ∧
    (s.inited = true → s.cfg.inIn (s.rxAddr + k) = true) ∧
    (s.inited = true → s.cfg.inOut (s.txAddr + k) = true ∨ s.cfg.inZero (s.txAddr + k) = true) ∧
    (∀ a : Nat, s.cfg.inOut a = true ∨ s.cfg.inIn a = true →
      a < 2 ^ s.cfg.addrW ∧ s.cfg.inZero a = false)

/-- R193, R197: `ENGINE_TX: BYTE`; disabled when the enable is off, the count exhausted or the queue full. -/
def Obligations.TxChannelMovesOneByte : Prop :=
  ∀ s : State,
    (s.txTrigEn = true → 0 < s.txRemain → s.txq.length < s.cfg.txqDepth →
      s.txAddr + (s.txLen - s.txRemain) < 2 ^ s.cfg.addrW →
      envStep .txByte s = .ok { s with
        txq := s.txq ++ [s.readByte (s.txAddr + (s.txLen - s.txRemain))]
        txRemain := s.txRemain - 1 }) ∧
    (s.txTrigEn = false ∨ s.txRemain = 0 ∨ s.cfg.txqDepth ≤ s.txq.length →
      envStep .txByte s = .ok s)

/-- R194, R197: `ENGINE_RX: BYTE`; the byte goes to the next byte of the bound slot and nowhere else. -/
def Obligations.RxChannelMovesOneByte : Prop :=
  ∀ s : State,
    (∀ (b : Byte) (q : List Byte), s.rxTrigEn = true → 0 < s.rxRemain → s.rxq = b :: q →
      s.rxAddr + (s.rxLen - s.rxRemain) < 2 ^ s.cfg.addrW →
      s.cfg.inZero (s.rxAddr + (s.rxLen - s.rxRemain)) = false →
      ∃ t, envStep .rxByte s = .ok t ∧
        t = { s with mem := t.mem, rxq := q, rxRemain := s.rxRemain - 1 } ∧
        t.readByte (s.rxAddr + (s.rxLen - s.rxRemain)) = b ∧
        ∀ a, a ≠ s.rxAddr + (s.rxLen - s.rxRemain) → t.readByte a = s.readByte a) ∧
    (s.rxTrigEn = false ∨ s.rxRemain = 0 ∨ s.rxq = [] → envStep .rxByte s = .ok s)

/-- R13 with the guards of R110, R130, R148, R165, R166, R167, R180 and R181: a word issued where its operation's guard is
false is refused by name and is no step. That such a word stops the run, and does not wait, is the model's
choice, log entry 4. (Where the spec refuses the command itself, R170, see `RefusedCommands`.) -/
def Obligations.GuardsRefuseIssuedWords : Prop :=
  ∀ s : State,
    (s.lock = true →
      exec .xdAcquire s = .refused (.notEnabled "XD_ACQUIRE") ∧
      exec .rearm s = .refused (.notEnabled "REARM")) ∧
    (s.lock = false →
      exec .xdRelease s = .refused (.notEnabled "XD_RELEASE") ∧
      exec .enqueue s = .refused (.notEnabled "ENQUEUE") ∧
      exec .dequeue s = .refused (.notEnabled "DEQUEUE") ∧
      exec .tryReserveOut s = .refused (.notEnabled "TRY_RESERVE_OUT") ∧
      exec .advanceIn s = .refused (.notEnabled "ADVANCE_IN")) ∧
    (s.inited = false →
      exec .rearm s = .refused (.notEnabled "REARM") ∧
      (s.hseq = .held → exec .init s = .refused (.notEnabled "INIT"))) ∧
    (s.inited = false ∨ s.lock = true ∨ s.pendA = false ∨ (s.pendD = true ∧ s.linkPhase = .active) →
      exec .selAssert s = .refused (.notEnabled "SEL_ASSERT")) ∧
    (s.inited = false ∨ s.lock = true ∨ s.pendD = false ∨ (s.pendA = true ∧ s.linkPhase = .idle) →
      exec .selDeassert s = .refused (.notEnabled "SEL_DEASSERT")) ∧
    ((s.hseq = .idle ∧ s.inited = true ∧ s.lock = true) ∨
      (s.hseq = .held ∧ (s.hcmd.op ≠ .submit ∨ s.lock = false)) →
      exec .submit s = .refused (.notEnabled "SUBMIT")) ∧
    ((s.hseq = .idle ∧ s.inited = true ∧ s.lock = true) ∨
      (s.hseq = .held ∧ (s.hcmd.op ≠ .receive ∨ s.lock = false)) →
      exec .receive s = .refused (.notEnabled "RECEIVE"))

/-- R13 with the guards of R148, R166, R167, R192, R193, R194: a turn whose step is disabled changes nothing but the
schedule. That the agents' turns are skipped then is the model's choice, log entry 3. -/
def Obligations.DisabledTurnsChangeNothing : Prop :=
  ∀ (s : State) (rest : List Turn),
    (∀ d, s.sched = .body d :: rest → s.hseq = .idle →
      step s = .next { s with sched := rest, report := Report.quiet }) ∧
    (s.sched = .service :: rest →
      s.inited = false ∨ s.lock = true ∨ (s.pendA = false ∧ s.pendD = false) →
      step s = .next { s with sched := rest, report := Report.quiet }) ∧
    (∀ m, s.sched = .env (.xchg m) :: rest → s.sel = false →
      step s = .next { s with sched := rest, report := Report.quiet }) ∧
    (s.sched = .env .txByte :: rest →
      s.txTrigEn = false ∨ s.txRemain = 0 ∨ s.cfg.txqDepth ≤ s.txq.length →
      step s = .next { s with sched := rest, report := Report.quiet }) ∧
    (s.sched = .env .rxByte :: rest → s.rxTrigEn = false ∨ s.rxRemain = 0 ∨ s.rxq = [] →
      step s = .next { s with sched := rest, report := Report.quiet })

/-- R192: `MASTER: XCHG`: the head of `TXQ` or some byte out, the master's byte into `RXQ` or lost; nothing
while the line is deasserted. -/
def Obligations.MasterExchangesOneByte : Prop :=
  ∀ (s : State) (m : Byte),
    (s.sel = false → envStep (.xchg m) s = .ok s) ∧
    (s.sel = true → ∃ (b : Byte) (d : Nat),
      envStep (.xchg m) s = .ok { s with
        masterLog := s.masterLog ++ [b]
        txq := s.txq.tail
        draws := d
        rxq := if s.rxq.length < s.cfg.rxqDepth then s.rxq ++ [m] else s.rxq } ∧
      (∀ (h : Byte) (q : List Byte), s.txq = h :: q → b = h))

/-- R198, R199, R195, R196, R190: the operations reach the environment only through their pulses: none touches
the line, the master's log or the transmit queue; only the drain touches the receive queue; only loads and
aborts touch the remaining counts. -/
def Obligations.BlockReachesEnvironmentByPulsesOnly : Prop :=
  ∀ (i : Instr) (s t : State), s.during = [] → exec i s = .next t →
    t.sel = s.sel ∧ t.masterLog = s.masterLog ∧ t.txq = s.txq ∧
    (i ≠ .drainRxq → i ≠ .selDeassert → t.rxq = s.rxq) ∧
    (i ≠ .init → i ≠ .rearm → i ≠ .haltEngine → i ≠ .selDeassert →
      t.rxRemain = s.rxRemain ∧ t.txRemain = s.txRemain)

/-- R60, R61, R43: of all operations only `ENQUEUE`, alone or inside `SUBMIT`, writes memory, and only inside
the outbound ring. -/
def Obligations.OnlyEnqueueWritesMemory : Prop :=
  ∀ (i : Instr) (s t : State), s.during = [] → exec i s = .next t →
    (i ≠ .enqueue → i ≠ .submit → ∀ a, t.readByte a = s.readByte a) ∧
    (0 < s.cfg.capacity → s.hcmd.frame.length = s.cfg.frameSize →
      ∀ a, s.cfg.inOut a = false → t.readByte a = s.readByte a)

/-! ## Rules about the whole machine -/

/-- R20, column "written by": an operation writes no register but those the table names for it or for an operation
in its expansion (R98). Inside a frame copy the detector may write its own registers. -/
def Obligations.OnlyNamedOperationsWrite : Prop :=
  ∀ (i : Instr) (s t : State) (r : Reg), exec i s = .next t → r ∉ i.mayWrite →
    (r ∈ detectorRegs → s.during = []) → t.reg r = s.reg r

/-- R5 to R9: the parameters never change at run time. -/
def Obligations.ParametersNeverChange : Prop :=
  ∀ s t : State, step s = .next t → t.cfg = s.cfg

/-- R31, R35, R26, R40, R63 and the canonical form of memory: the invariant is kept by every step of the spec's
agents, from every state that has it. -/
def Obligations.StepKeepsInvariant : Prop :=
  ∀ s t : State, s.Inv → step s = .next t → t.Inv

/-- The invariant holds after reset, for every legal instance. -/
def Obligations.ResetMeetsInvariant : Prop :=
  (∀ c : Config, c.wf = true → (State.resetOf c).Inv) ∧ State.reset.Inv

/-- `60_exceptions.md`, "No condition in this subsystem is fatal", and `93_implementation_defined.md`, nothing is
ever stuck: under the invariant a step never faults, and only a host command is ever refused. -/
def Obligations.NothingIsFatal : Prop :=
  ∀ s : State, s.Inv →
    (∀ r, step s ≠ .fault r) ∧
    ((∀ w f rest, s.sched ≠ .cmd w f :: rest ∧ s.sched ≠ .contend w f :: rest) →
      ∃ t, step s = .next t)

/-- R146, R148 (derived there): while no edge was lost, a single pending bit is that of the last edge; every
step keeps this, and it holds after reset. -/
def Obligations.PendingEdgesStayInOrder : Prop :=
  (∀ s t : State, s.EdgesInOrder → step s = .next t → t.EdgesInOrder) ∧
  (∀ c : Config, (State.resetOf c).EdgesInOrder)

/-- R7, R20: under the invariant every register fits its width. -/
def Obligations.RegistersFitTheirWidths : Prop :=
  ∀ (s : State) (r : Reg) (w : Nat), s.Inv → r.width s.cfg = some w →
    ∃ n, s.reg r = .num n ∧ n < 2 ^ w

/-- R73, R111, R113 (R28): the outbound ring is a first-in first-out queue of whole frames, and its operations
leave the inbound ring alone. It holds wherever the domain is held, by the host or inside a `REARM`. -/
def Obligations.OutboundRingIsFifo : Prop :=
  ∀ s : State, s.cfg.wf = true → s.RingsOk → s.lock = true → s.during = [] →
    (s.hcmd.frame.length = s.cfg.frameSize → s.outCount ≠ s.cfg.capacity →
      ∃ t, exec .enqueue s = .next t ∧
        t.outQueue = s.outQueue ++ [s.hcmd.frame] ∧ t.inQueue = s.inQueue) ∧
    (∀ f q, s.outQueue = f :: q →
      ∃ t k, exec .tryReserveOut s = .next t ∧ t.outQueue = q ∧ t.inQueue = s.inQueue ∧
        t.report.result = .slot (some k) ∧
        t.readBytes (slotAddr t.cfg t.cfg.outBase k) t.cfg.frameSize = f) ∧
    (s.outQueue = [] →
      ∃ t, exec .tryReserveOut s = .next t ∧ t.outQueue = [] ∧ t.inQueue = s.inQueue ∧
        t.report.result = .slot none)

/-- R73, R112, R114, R116 (R30): the inbound ring is a first-in first-out queue whose newest frame always wins:
when it is full the oldest frame goes; its operations leave the outbound ring alone. It holds wherever the
domain is held, by the host or inside a `REARM`. -/
def Obligations.InboundRingIsFifoNewestWins : Prop :=
  ∀ s : State, s.cfg.wf = true → s.RingsOk → s.lock = true → s.during = [] →
    (∃ t, exec .advanceIn s = .next t ∧
      t.inQueue = (if s.inCount = s.cfg.capacity then s.inQueue.tail else s.inQueue) ++
        [s.readBytes (slotAddr s.cfg s.cfg.inBase s.inCursor) s.cfg.frameSize] ∧
      t.outQueue = s.outQueue) ∧
    (∀ f q, s.inQueue = f :: q →
      ∃ t, exec .dequeue s = .next t ∧ t.inQueue = q ∧ t.outQueue = s.outQueue ∧
        t.report.result = .frame (some f)) ∧
    (s.inQueue = [] →
      ∃ t, exec .dequeue s = .next t ∧ t.inQueue = [] ∧ t.outQueue = s.outQueue ∧
        t.report.result = .frame none)

/-- R73, R130, R150 (R27, R28, R30): a rebind, alone or in the deassert handler, takes the oldest outbound frame off
its ring and binds it (or the zero frame), and adds the frame in the slot the RX channel was bound to as the
newest inbound frame, the oldest one going when the ring is full. -/
def Obligations.RebindMovesOneFrameEachWay : Prop :=
  ∀ (i : Instr) (s : State), s.Inv →
    (i = .rearm ∧ s.inited = true ∧ s.lock = false) ∨
      (i = .selDeassert ∧ s.serviceChoice = some .deasserted) →
    ∃ t, exec i s = .next t ∧
      t.outQueue = s.outQueue.tail ∧
      t.boundOutFrame = s.outQueue.headD (List.replicate s.cfg.frameSize 0) ∧
      t.inQueue = (if s.inCount = s.cfg.capacity then s.inQueue.tail else s.inQueue) ++
        [s.boundInFrame]

/-- R201, R258: under the premise `NoIdlePrefetch`, a step in which the line stays deasserted leaves `TXQ` as it was,
whether the other agents' steps are turns or fall inside a frame copy. -/
def Obligations.NoPrefetchLeavesIdleQueueAlone : Prop :=
  ∀ s t : State, s.sel = false → s.noIdlePrefetch = true →
    (∀ e ∈ s.nextEnvSteps, e.asserts s.cfg = false) → step s = .next t → t.txq = s.txq

/-- R246 (H1): while a deassert is pending, a master that waits clocks no byte in either direction, whether its steps are
turns or fall inside a frame copy; and a master that leaves the line deasserted waits, and the line stays so. -/
def Obligations.WaitingMasterClocksNothing : Prop :=
  (∀ s t : State, s.pendD = true → s.masterWaited = true → step s = .next t →
    t.masterLog = s.masterLog ∧ t.rxq.length ≤ s.rxq.length) ∧
  (∀ s t : State, s.pendD = true → s.sel = false → s.leavesLineDeasserted = true →
    s.masterWaited = true ∧ (step s = .next t → t.sel = false))

/-- R79, R67, R168: `SUBMIT` ends whatever the other agents do inside its copy. The frame is stored or dropped
whole, counted once, and the registers the detector does not write are those the rule names. -/
def Obligations.SubmitRunsUnderAnyInterleaving : Prop :=
  ∀ s : State, s.Inv → s.hseq = .held → s.hcmd.op = .submit →
    ∃ t, exec .submit s = .next t ∧ t.Inv ∧ t.lock = false ∧ t.hseq = .idle ∧
      t.outCount = (if s.outCount = s.cfg.capacity then s.outCount else s.outCount + 1) ∧
      (s.outCount ≠ s.cfg.capacity →
        t.readBytes (slotAddr s.cfg s.cfg.outBase s.enqueueSlot) s.cfg.frameSize = s.hcmd.frame) ∧
      (∀ r : Reg, r ∉ [Reg.lock, .hseq, .outCount] → r ∉ detectorRegs → t.reg r = s.reg r)

/-- R79, R67, R168: `RECEIVE` ends whatever the other agents do inside its copy, with a whole frame or none;
each byte is one that stood in the slot at its own moment, so only the size and the count are stated. -/
def Obligations.ReceiveRunsUnderAnyInterleaving : Prop :=
  ∀ s : State, s.Inv → s.hseq = .held → s.hcmd.op = .receive →
    ∃ t, exec .receive s = .next t ∧ t.Inv ∧ t.lock = false ∧ t.hseq = .idle ∧
      t.inCount = s.inCount - 1 ∧
      t.respSize = (if s.inCount = 0 then 0 else s.cfg.frameSize) ∧
      t.respFrame.length = s.cfg.frameSize ∧
      (s.inCount = 0 → t.respFrame = s.respFrame) ∧
      (∀ r : Reg, r ∉ [Reg.lock, .hseq, .inCount] → r ∉ detectorRegs → t.reg r = s.reg r)

/-- R185: a `SUBMIT` and a `SEL_DEASSERT` that meet serialise; in neither order is the frame lost or counted
twice; when the ring was empty the orders differ in what the next cycle sends. -/
def Obligations.SubmitAndDeassertSerialise : Prop :=
  ∀ s : State, s.Inv → s.hseq = .idle → s.during = [] → s.serviceChoice = some .deasserted →
    (∃ a b c, exec .selDeassert s = .next a ∧ exec .submit a = .next b ∧ exec .submit b = .next c ∧
      c.outCount = s.outCount - 1 + 1 ∧ (s.outCount = 0 → c.txAddr = s.cfg.zeroBase)) ∧
    (∃ a b c, exec .submit s = .next a ∧ exec .submit a = .next b ∧ exec .selDeassert b = .next c ∧
      c.outCount = (if s.outCount = s.cfg.capacity then s.outCount - 1 else s.outCount) ∧
      (s.outCount = 0 → c.txAddr = slotAddr s.cfg s.cfg.outBase s.outCursor ∧
        c.readBytes c.txAddr c.cfg.frameSize = portFrame s.cfg.frameSize s.cmdFrame))

/-- R185: the same for `RECEIVE`. -/
def Obligations.ReceiveAndDeassertSerialise : Prop :=
  ∀ s : State, s.Inv → s.hseq = .idle → s.during = [] → s.serviceChoice = some .deasserted →
    (∃ a b c, exec .selDeassert s = .next a ∧ exec .receive a = .next b ∧
      exec .receive b = .next c ∧ c.inCount = min (s.inCount + 1) s.cfg.capacity - 1) ∧
    (∃ a b c, exec .receive s = .next a ∧ exec .receive a = .next b ∧
      exec .selDeassert b = .next c ∧ c.inCount = s.inCount - 1 + 1)

/-- R203, R101: a full clean frame cycle, with every service right after its edge: the master receives the bound
frame, the bound slot receives the master's, and the next bindings are made. -/
def Obligations.CleanFrameCycle : Prop :=
  ∀ (s : State) (m : List Byte) (rest : List Turn),
    s.Inv → s.CleanIdle → m.length = s.cfg.frameSize →
    s.sched = Trace.xferCycle s.cfg m ++ rest →
    ∃ t : State, Host.Core.run Sys2Proof.core (Trace.xferCycle s.cfg m).length s = .next t ∧
      t.masterLog = s.masterLog ++ s.boundOutFrame ∧
      t.readBytes s.rxAddr s.cfg.frameSize = m ∧
      (∀ a, (a < s.rxAddr ∨ s.rxAddr + s.cfg.frameSize ≤ a) → t.readByte a = s.readByte a) ∧
      t.inCount = (if s.inCount = s.cfg.capacity then s.inCount else s.inCount + 1) ∧
      t.inCursor = (s.inCursor + 1) % s.cfg.capacity ∧
      t.outCount = s.outCount - 1 ∧
      t.txAddr = (if 0 < s.outCount then slotAddr s.cfg s.cfg.outBase s.outCursor
        else s.cfg.zeroBase) ∧
      t.CleanIdle ∧ t.Inv ∧ t.sched = rest

/-! ## Reset -/

/-- R42, R241: the values the spec gives for reset. (`HCMD`, the bindings and what lies outside the block hold
values the model names, log entries 7 to 9; the statement says nothing of them.) -/
def Obligations.ResetValues : Prop :=
  ∀ c : Config,
    (State.resetOf c).inited = false ∧ (State.resetOf c).lock = false ∧
    (State.resetOf c).linkPhase = .idle ∧ (State.resetOf c).pendA = false ∧
    (State.resetOf c).pendD = false ∧ (State.resetOf c).syncFault = false ∧
    (State.resetOf c).hseq = .idle ∧
    (State.resetOf c).outCursor = 0 ∧ (State.resetOf c).outCount = 0 ∧
    (State.resetOf c).inCursor = 0 ∧ (State.resetOf c).inCount = 0 ∧
    (State.resetOf c).rxTrigEn = false ∧ (State.resetOf c).txTrigEn = false ∧
    (State.resetOf c).mem = [] ∧
    (∀ k, k < c.frameSize → (State.resetOf c).readByte (c.zeroBase + k) = 0)

/-- R240, R242: reset in any state: every register R42 gives a value takes it, storage is unwritten again, and
the environment stays. -/
def Obligations.RstClearsTheBlockOnly : Prop :=
  ∀ (s : State) (rest : List Turn), s.sched = .rst :: rest →
    ∃ t, step s = .next t ∧
      t.inited = false ∧ t.lock = false ∧ t.linkPhase = .idle ∧ t.pendA = false ∧
      t.pendD = false ∧ t.syncFault = false ∧ t.hseq = .idle ∧ t.outCursor = 0 ∧
      t.outCount = 0 ∧ t.inCursor = 0 ∧ t.inCount = 0 ∧ t.rxTrigEn = false ∧
      t.txTrigEn = false ∧ t.mem = [] ∧
      t.sel = s.sel ∧ t.rxRemain = s.rxRemain ∧ t.txRemain = s.txRemain ∧ t.rxq = s.rxq ∧
      t.txq = s.txq ∧ t.masterLog = s.masterLog ∧ t.cfg = s.cfg ∧ t.sched = rest
end

