-- ==== Sys2Proof/Laws/Memory.lean ====
section
/-! SUPPORT. Laws of the byte memory: read after write, a write leaves every other address alone, and every
memory operation keeps the canonical form. -/

namespace Sys2Proof.Machine

theorem Memory.lookup_write_same (m : Memory) (x : Nat) (b : Byte) :
    Memory.lookup (Memory.write m x b) x = some b := by
  induction m with
  | nil => simp [Memory.write, Memory.lookup]
  | cons c m ih =>
    obtain ⟨a, v⟩ := c
    by_cases h₁ : x < a
    · simp [Memory.write, h₁, Memory.lookup]
    · by_cases h₂ : x = a
      · subst h₂; simp [Memory.write, Memory.lookup]
      · simp [Memory.write, h₁, h₂, Memory.lookup, ih]

theorem Memory.lookup_write_other (m : Memory) {x y : Nat} (b : Byte) (h : y ≠ x) :
    Memory.lookup (Memory.write m x b) y = Memory.lookup m y := by
  induction m with
  | nil => simp [Memory.write, Memory.lookup, h]
  | cons c m ih =>
    obtain ⟨a, v⟩ := c
    by_cases h₁ : x < a
    · simp [Memory.write, h₁, Memory.lookup, h]
    · by_cases h₂ : x = a
      · subst h₂; simp [Memory.write, Memory.lookup, h]
      · simp [Memory.write, h₁, h₂, Memory.lookup, ih]

/-- Every address a write lists is the written one or was listed before. -/
theorem Memory.mem_write {m : Memory} {x : Nat} {b : Byte} {c : Host.Cell}
    (h : c ∈ Memory.write m x b) : c.1 = x ∨ c ∈ m := by
  induction m with
  | nil => simp [Memory.write] at h; simp [h]
  | cons d m ih =>
    obtain ⟨a, v⟩ := d
    simp only [Memory.write] at h
    split at h
    · rcases List.mem_cons.1 h with rfl | h
      · exact .inl rfl
      · exact .inr h
    · split at h
      · rcases List.mem_cons.1 h with rfl | h
        · exact .inl rfl
        · exact .inr (List.mem_cons_of_mem _ h)
      · rcases List.mem_cons.1 h with rfl | h
        · exact .inr (List.mem_cons_self ..)
        · exact (ih h).imp_right (List.mem_cons_of_mem _)

/-- A write keeps the canonical form. -/
theorem Memory.write_wf {m : Memory} (x : Nat) (b : Byte) (h : Memory.wf m) :
    Memory.wf (Memory.write m x b) := by
  induction m with
  | nil => simp [Memory.write, Memory.wf]
  | cons d m ih =>
    obtain ⟨a, v⟩ := d
    obtain ⟨hlt, hm⟩ := List.pairwise_cons.1 h
    simp only [Memory.write]
    split
    · rename_i hx
      refine List.pairwise_cons.2 ⟨fun c hc => ?_, h⟩
      rcases List.mem_cons.1 hc with rfl | hc
      · exact hx
      · exact lt_trans hx (hlt c hc)
    · split
      · rename_i hx; subst hx
        exact List.pairwise_cons.2 ⟨fun c hc => hlt c hc, hm⟩
      · rename_i hx hne
        refine List.pairwise_cons.2 ⟨fun c hc => ?_, ih hm⟩
        rcases Memory.mem_write hc with hc | hc
        · show a < c.1
          omega
        · exact hlt c hc

/-- A canonical memory lists each address once. -/
theorem Memory.lookup_of_mem {m : Memory} {c : Host.Cell} (h : Memory.wf m) (hc : c ∈ m) :
    Memory.lookup m c.1 = some c.2 := by
  induction m with
  | nil => cases hc
  | cons d m ih =>
    obtain ⟨hlt, hm⟩ := List.pairwise_cons.1 h
    rcases List.mem_cons.1 hc with rfl | hc
    · simp [Memory.lookup]
    · have hne : c.1 ≠ d.1 := fun e => absurd (hlt c hc) (by omega)
      simp [Memory.lookup, hne, ih hm hc]

/-- R63: the zero frame reads as zeros in every state. -/
theorem State.readByte_zero {s : State} {a : Nat} (h : s.cfg.inZero a = true) : s.readByte a = 0 := by
  simp [State.readByte, h]

/-- What a byte reads as depends on the parameters, the listed bytes and the epoch only. -/
theorem State.readByte_congr {s t : State} (a : Nat) (hc : t.cfg = s.cfg) (hm : t.mem = s.mem)
    (he : t.epoch = s.epoch) : t.readByte a = s.readByte a := by
  simp [State.readByte, State.unlisted, hc, hm, he]

/-- A sequence of bytes reads alike where each of its bytes does. -/
theorem State.readBytes_congr {s t : State} (a n : Nat)
    (h : ∀ k, k < n → t.readByte (a + k) = s.readByte (a + k)) :
    t.readBytes a n = s.readBytes a n := by
  induction n generalizing a with
  | zero => rfl
  | succ n ih =>
    simp only [State.readBytes]
    rw [show t.readByte a = s.readByte a from h 0 (by omega),
      ih (a + 1) (fun k hk => by
        have e : a + 1 + k = a + (k + 1) := by omega
        rw [e]; exact h (k + 1) (by omega))]

@[simp] theorem State.length_readBytes (s : State) (a n : Nat) : (s.readBytes a n).length = n := by
  induction n generalizing a with
  | zero => rfl
  | succ n ih => simp [State.readBytes, ih]

/-- Byte `k` of a sequence is the byte at its address plus `k` (R64). -/
theorem State.getElem_readBytes (s : State) (a n k : Nat) (h : k < n) :
    (s.readBytes a n)[k]'(by simpa using h) = s.readByte (a + k) := by
  induction n generalizing a k with
  | zero => omega
  | succ n ih =>
    cases k with
    | zero => rfl
    | succ k =>
      simp only [State.readBytes, List.getElem_cons_succ]
      rw [ih (a + 1) k (by omega)]
      congr 1
      omega

/-- All that a byte store can do: it changes memory alone, at an address that exists outside `ZERO`. -/
theorem State.storeByte_ok {s t : State} {a : Nat} {b : Byte} (h : s.storeByte a b = .ok t) :
    t = { s with mem := Memory.write s.mem a b } ∧ a < 2 ^ s.cfg.addrW ∧ s.cfg.inZero a = false := by
  unfold State.storeByte at h
  split at h
  · cases h
  · split at h
    · cases h
    · rename_i h₁ h₂
      cases h
      exact ⟨rfl, by omega, by simpa using h₂⟩

theorem State.storeByte_of_lt {s : State} {a : Nat} {b : Byte} (h₁ : a < 2 ^ s.cfg.addrW)
    (h₂ : s.cfg.inZero a = false) :
    s.storeByte a b = .ok { s with mem := Memory.write s.mem a b } := by
  have h : ¬ 2 ^ s.cfg.addrW ≤ a := by omega
  simp [State.storeByte, h, h₂]

theorem State.loadByte_of_lt {s : State} {a : Nat} (h : a < 2 ^ s.cfg.addrW) :
    s.loadByte a = .ok (s.readByte a) := by
  simp [State.loadByte, h]

/-- All that a byte load can do. -/
theorem State.loadByte_ok {s : State} {a : Nat} {b : Byte} (h : s.loadByte a = .ok b) :
    b = s.readByte a ∧ a < 2 ^ s.cfg.addrW := by
  unfold State.loadByte at h
  split at h
  · cases h; exact ⟨rfl, by assumption⟩
  · cases h

/-- Read after write, outside `ZERO`. -/
theorem State.readByte_write_same (s : State) (a : Nat) (b : Byte) (h : s.cfg.inZero a = false) :
    State.readByte { s with mem := Memory.write s.mem a b } a = b := by
  simp [State.readByte, h, Memory.lookup_write_same]

/-- A write leaves every other address alone. -/
theorem State.readByte_write_other (s : State) {a x : Nat} (b : Byte) (h : x ≠ a) :
    State.readByte { s with mem := Memory.write s.mem a b } x = s.readByte x := by
  simp [State.readByte, State.unlisted, Memory.lookup_write_other _ _ h]

end Sys2Proof.Machine
end

