-- ==== Sys2Proof/Laws/State.lean ====
section
/-! SUPPORT. The plain updates of State, field by field: what each writes and what it leaves. The operations built from
them have their equations in Laws/Operations.lean. -/

namespace Sys2Proof.Machine

@[simp] theorem State.raise_cfg (c : Condition) (s : State) : (State.raise c s).cfg = s.cfg := rfl
@[simp] theorem State.raise_inited (c : Condition) (s : State) : (State.raise c s).inited = s.inited := rfl
@[simp] theorem State.raise_lock (c : Condition) (s : State) : (State.raise c s).lock = s.lock := rfl
@[simp] theorem State.raise_linkPhase (c : Condition) (s : State) : (State.raise c s).linkPhase = s.linkPhase := rfl
@[simp] theorem State.raise_pendA (c : Condition) (s : State) : (State.raise c s).pendA = s.pendA := rfl
@[simp] theorem State.raise_pendD (c : Condition) (s : State) : (State.raise c s).pendD = s.pendD := rfl
@[simp] theorem State.raise_syncFault (c : Condition) (s : State) : (State.raise c s).syncFault = s.syncFault := rfl
@[simp] theorem State.raise_hseq (c : Condition) (s : State) : (State.raise c s).hseq = s.hseq := rfl
@[simp] theorem State.raise_hcmd (c : Condition) (s : State) : (State.raise c s).hcmd = s.hcmd := rfl
@[simp] theorem State.raise_outCursor (c : Condition) (s : State) : (State.raise c s).outCursor = s.outCursor := rfl
@[simp] theorem State.raise_outCount (c : Condition) (s : State) : (State.raise c s).outCount = s.outCount := rfl
@[simp] theorem State.raise_inCursor (c : Condition) (s : State) : (State.raise c s).inCursor = s.inCursor := rfl
@[simp] theorem State.raise_inCount (c : Condition) (s : State) : (State.raise c s).inCount = s.inCount := rfl
@[simp] theorem State.raise_rxAddr (c : Condition) (s : State) : (State.raise c s).rxAddr = s.rxAddr := rfl
@[simp] theorem State.raise_rxLen (c : Condition) (s : State) : (State.raise c s).rxLen = s.rxLen := rfl
@[simp] theorem State.raise_txAddr (c : Condition) (s : State) : (State.raise c s).txAddr = s.txAddr := rfl
@[simp] theorem State.raise_txLen (c : Condition) (s : State) : (State.raise c s).txLen = s.txLen := rfl
@[simp] theorem State.raise_rxTrigEn (c : Condition) (s : State) : (State.raise c s).rxTrigEn = s.rxTrigEn := rfl
@[simp] theorem State.raise_txTrigEn (c : Condition) (s : State) : (State.raise c s).txTrigEn = s.txTrigEn := rfl
@[simp] theorem State.raise_mem (c : Condition) (s : State) : (State.raise c s).mem = s.mem := rfl
@[simp] theorem State.raise_epoch (c : Condition) (s : State) : (State.raise c s).epoch = s.epoch := rfl
@[simp] theorem State.raise_sel (c : Condition) (s : State) : (State.raise c s).sel = s.sel := rfl
@[simp] theorem State.raise_rxRemain (c : Condition) (s : State) : (State.raise c s).rxRemain = s.rxRemain := rfl
@[simp] theorem State.raise_txRemain (c : Condition) (s : State) : (State.raise c s).txRemain = s.txRemain := rfl
@[simp] theorem State.raise_rxq (c : Condition) (s : State) : (State.raise c s).rxq = s.rxq := rfl
@[simp] theorem State.raise_txq (c : Condition) (s : State) : (State.raise c s).txq = s.txq := rfl
@[simp] theorem State.raise_masterLog (c : Condition) (s : State) : (State.raise c s).masterLog = s.masterLog := rfl
@[simp] theorem State.raise_draws (c : Condition) (s : State) : (State.raise c s).draws = s.draws := rfl
@[simp] theorem State.raise_cmd (c : Condition) (s : State) : (State.raise c s).cmd = s.cmd := rfl
@[simp] theorem State.raise_cmdFrame (c : Condition) (s : State) : (State.raise c s).cmdFrame = s.cmdFrame := rfl
@[simp] theorem State.raise_respSize (c : Condition) (s : State) : (State.raise c s).respSize = s.respSize := rfl
@[simp] theorem State.raise_respFrame (c : Condition) (s : State) : (State.raise c s).respFrame = s.respFrame := rfl
@[simp] theorem State.raise_during (c : Condition) (s : State) : (State.raise c s).during = s.during := rfl
@[simp] theorem State.raise_sched (c : Condition) (s : State) : (State.raise c s).sched = s.sched := rfl
@[simp] theorem State.raise_report (c : Condition) (s : State) : (State.raise c s).report = { s.report with conds := s.report.conds ++ [c] } := rfl

@[simp] theorem State.withResult_cfg (r : MicroResult) (s : State) : (State.withResult r s).cfg = s.cfg := rfl
@[simp] theorem State.withResult_inited (r : MicroResult) (s : State) : (State.withResult r s).inited = s.inited := rfl
@[simp] theorem State.withResult_lock (r : MicroResult) (s : State) : (State.withResult r s).lock = s.lock := rfl
@[simp] theorem State.withResult_linkPhase (r : MicroResult) (s : State) : (State.withResult r s).linkPhase = s.linkPhase := rfl
@[simp] theorem State.withResult_pendA (r : MicroResult) (s : State) : (State.withResult r s).pendA = s.pendA := rfl
@[simp] theorem State.withResult_pendD (r : MicroResult) (s : State) : (State.withResult r s).pendD = s.pendD := rfl
@[simp] theorem State.withResult_syncFault (r : MicroResult) (s : State) : (State.withResult r s).syncFault = s.syncFault := rfl
@[simp] theorem State.withResult_hseq (r : MicroResult) (s : State) : (State.withResult r s).hseq = s.hseq := rfl
@[simp] theorem State.withResult_hcmd (r : MicroResult) (s : State) : (State.withResult r s).hcmd = s.hcmd := rfl
@[simp] theorem State.withResult_outCursor (r : MicroResult) (s : State) : (State.withResult r s).outCursor = s.outCursor := rfl
@[simp] theorem State.withResult_outCount (r : MicroResult) (s : State) : (State.withResult r s).outCount = s.outCount := rfl
@[simp] theorem State.withResult_inCursor (r : MicroResult) (s : State) : (State.withResult r s).inCursor = s.inCursor := rfl
@[simp] theorem State.withResult_inCount (r : MicroResult) (s : State) : (State.withResult r s).inCount = s.inCount := rfl
@[simp] theorem State.withResult_rxAddr (r : MicroResult) (s : State) : (State.withResult r s).rxAddr = s.rxAddr := rfl
@[simp] theorem State.withResult_rxLen (r : MicroResult) (s : State) : (State.withResult r s).rxLen = s.rxLen := rfl
@[simp] theorem State.withResult_txAddr (r : MicroResult) (s : State) : (State.withResult r s).txAddr = s.txAddr := rfl
@[simp] theorem State.withResult_txLen (r : MicroResult) (s : State) : (State.withResult r s).txLen = s.txLen := rfl
@[simp] theorem State.withResult_rxTrigEn (r : MicroResult) (s : State) : (State.withResult r s).rxTrigEn = s.rxTrigEn := rfl
@[simp] theorem State.withResult_txTrigEn (r : MicroResult) (s : State) : (State.withResult r s).txTrigEn = s.txTrigEn := rfl
@[simp] theorem State.withResult_mem (r : MicroResult) (s : State) : (State.withResult r s).mem = s.mem := rfl
@[simp] theorem State.withResult_epoch (r : MicroResult) (s : State) : (State.withResult r s).epoch = s.epoch := rfl
@[simp] theorem State.withResult_sel (r : MicroResult) (s : State) : (State.withResult r s).sel = s.sel := rfl
@[simp] theorem State.withResult_rxRemain (r : MicroResult) (s : State) : (State.withResult r s).rxRemain = s.rxRemain := rfl
@[simp] theorem State.withResult_txRemain (r : MicroResult) (s : State) : (State.withResult r s).txRemain = s.txRemain := rfl
@[simp] theorem State.withResult_rxq (r : MicroResult) (s : State) : (State.withResult r s).rxq = s.rxq := rfl
@[simp] theorem State.withResult_txq (r : MicroResult) (s : State) : (State.withResult r s).txq = s.txq := rfl
@[simp] theorem State.withResult_masterLog (r : MicroResult) (s : State) : (State.withResult r s).masterLog = s.masterLog := rfl
@[simp] theorem State.withResult_draws (r : MicroResult) (s : State) : (State.withResult r s).draws = s.draws := rfl
@[simp] theorem State.withResult_cmd (r : MicroResult) (s : State) : (State.withResult r s).cmd = s.cmd := rfl
@[simp] theorem State.withResult_cmdFrame (r : MicroResult) (s : State) : (State.withResult r s).cmdFrame = s.cmdFrame := rfl
@[simp] theorem State.withResult_respSize (r : MicroResult) (s : State) : (State.withResult r s).respSize = s.respSize := rfl
@[simp] theorem State.withResult_respFrame (r : MicroResult) (s : State) : (State.withResult r s).respFrame = s.respFrame := rfl
@[simp] theorem State.withResult_during (r : MicroResult) (s : State) : (State.withResult r s).during = s.during := rfl
@[simp] theorem State.withResult_sched (r : MicroResult) (s : State) : (State.withResult r s).sched = s.sched := rfl
@[simp] theorem State.withResult_report (r : MicroResult) (s : State) : (State.withResult r s).report = { s.report with result := r } := rfl

@[simp] theorem State.takeLock_cfg (s : State) : (s.takeLock).cfg = s.cfg := rfl
@[simp] theorem State.takeLock_inited (s : State) : (s.takeLock).inited = s.inited := rfl
@[simp] theorem State.takeLock_lock (s : State) : (s.takeLock).lock = true := rfl
@[simp] theorem State.takeLock_linkPhase (s : State) : (s.takeLock).linkPhase = s.linkPhase := rfl
@[simp] theorem State.takeLock_pendA (s : State) : (s.takeLock).pendA = s.pendA := rfl
@[simp] theorem State.takeLock_pendD (s : State) : (s.takeLock).pendD = s.pendD := rfl
@[simp] theorem State.takeLock_syncFault (s : State) : (s.takeLock).syncFault = s.syncFault := rfl
@[simp] theorem State.takeLock_hseq (s : State) : (s.takeLock).hseq = s.hseq := rfl
@[simp] theorem State.takeLock_hcmd (s : State) : (s.takeLock).hcmd = s.hcmd := rfl
@[simp] theorem State.takeLock_outCursor (s : State) : (s.takeLock).outCursor = s.outCursor := rfl
@[simp] theorem State.takeLock_outCount (s : State) : (s.takeLock).outCount = s.outCount := rfl
@[simp] theorem State.takeLock_inCursor (s : State) : (s.takeLock).inCursor = s.inCursor := rfl
@[simp] theorem State.takeLock_inCount (s : State) : (s.takeLock).inCount = s.inCount := rfl
@[simp] theorem State.takeLock_rxAddr (s : State) : (s.takeLock).rxAddr = s.rxAddr := rfl
@[simp] theorem State.takeLock_rxLen (s : State) : (s.takeLock).rxLen = s.rxLen := rfl
@[simp] theorem State.takeLock_txAddr (s : State) : (s.takeLock).txAddr = s.txAddr := rfl
@[simp] theorem State.takeLock_txLen (s : State) : (s.takeLock).txLen = s.txLen := rfl
@[simp] theorem State.takeLock_rxTrigEn (s : State) : (s.takeLock).rxTrigEn = s.rxTrigEn := rfl
@[simp] theorem State.takeLock_txTrigEn (s : State) : (s.takeLock).txTrigEn = s.txTrigEn := rfl
@[simp] theorem State.takeLock_mem (s : State) : (s.takeLock).mem = s.mem := rfl
@[simp] theorem State.takeLock_epoch (s : State) : (s.takeLock).epoch = s.epoch := rfl
@[simp] theorem State.takeLock_sel (s : State) : (s.takeLock).sel = s.sel := rfl
@[simp] theorem State.takeLock_rxRemain (s : State) : (s.takeLock).rxRemain = s.rxRemain := rfl
@[simp] theorem State.takeLock_txRemain (s : State) : (s.takeLock).txRemain = s.txRemain := rfl
@[simp] theorem State.takeLock_rxq (s : State) : (s.takeLock).rxq = s.rxq := rfl
@[simp] theorem State.takeLock_txq (s : State) : (s.takeLock).txq = s.txq := rfl
@[simp] theorem State.takeLock_masterLog (s : State) : (s.takeLock).masterLog = s.masterLog := rfl
@[simp] theorem State.takeLock_draws (s : State) : (s.takeLock).draws = s.draws := rfl
@[simp] theorem State.takeLock_cmd (s : State) : (s.takeLock).cmd = s.cmd := rfl
@[simp] theorem State.takeLock_cmdFrame (s : State) : (s.takeLock).cmdFrame = s.cmdFrame := rfl
@[simp] theorem State.takeLock_respSize (s : State) : (s.takeLock).respSize = s.respSize := rfl
@[simp] theorem State.takeLock_respFrame (s : State) : (s.takeLock).respFrame = s.respFrame := rfl
@[simp] theorem State.takeLock_during (s : State) : (s.takeLock).during = s.during := rfl
@[simp] theorem State.takeLock_sched (s : State) : (s.takeLock).sched = s.sched := rfl
@[simp] theorem State.takeLock_report (s : State) : (s.takeLock).report = s.report := rfl

@[simp] theorem State.dropLock_cfg (s : State) : (s.dropLock).cfg = s.cfg := rfl
@[simp] theorem State.dropLock_inited (s : State) : (s.dropLock).inited = s.inited := rfl
@[simp] theorem State.dropLock_lock (s : State) : (s.dropLock).lock = false := rfl
@[simp] theorem State.dropLock_linkPhase (s : State) : (s.dropLock).linkPhase = s.linkPhase := rfl
@[simp] theorem State.dropLock_pendA (s : State) : (s.dropLock).pendA = s.pendA := rfl
@[simp] theorem State.dropLock_pendD (s : State) : (s.dropLock).pendD = s.pendD := rfl
@[simp] theorem State.dropLock_syncFault (s : State) : (s.dropLock).syncFault = s.syncFault := rfl
@[simp] theorem State.dropLock_hseq (s : State) : (s.dropLock).hseq = s.hseq := rfl
@[simp] theorem State.dropLock_hcmd (s : State) : (s.dropLock).hcmd = s.hcmd := rfl
@[simp] theorem State.dropLock_outCursor (s : State) : (s.dropLock).outCursor = s.outCursor := rfl
@[simp] theorem State.dropLock_outCount (s : State) : (s.dropLock).outCount = s.outCount := rfl
@[simp] theorem State.dropLock_inCursor (s : State) : (s.dropLock).inCursor = s.inCursor := rfl
@[simp] theorem State.dropLock_inCount (s : State) : (s.dropLock).inCount = s.inCount := rfl
@[simp] theorem State.dropLock_rxAddr (s : State) : (s.dropLock).rxAddr = s.rxAddr := rfl
@[simp] theorem State.dropLock_rxLen (s : State) : (s.dropLock).rxLen = s.rxLen := rfl
@[simp] theorem State.dropLock_txAddr (s : State) : (s.dropLock).txAddr = s.txAddr := rfl
@[simp] theorem State.dropLock_txLen (s : State) : (s.dropLock).txLen = s.txLen := rfl
@[simp] theorem State.dropLock_rxTrigEn (s : State) : (s.dropLock).rxTrigEn = s.rxTrigEn := rfl
@[simp] theorem State.dropLock_txTrigEn (s : State) : (s.dropLock).txTrigEn = s.txTrigEn := rfl
@[simp] theorem State.dropLock_mem (s : State) : (s.dropLock).mem = s.mem := rfl
@[simp] theorem State.dropLock_epoch (s : State) : (s.dropLock).epoch = s.epoch := rfl
@[simp] theorem State.dropLock_sel (s : State) : (s.dropLock).sel = s.sel := rfl
@[simp] theorem State.dropLock_rxRemain (s : State) : (s.dropLock).rxRemain = s.rxRemain := rfl
@[simp] theorem State.dropLock_txRemain (s : State) : (s.dropLock).txRemain = s.txRemain := rfl
@[simp] theorem State.dropLock_rxq (s : State) : (s.dropLock).rxq = s.rxq := rfl
@[simp] theorem State.dropLock_txq (s : State) : (s.dropLock).txq = s.txq := rfl
@[simp] theorem State.dropLock_masterLog (s : State) : (s.dropLock).masterLog = s.masterLog := rfl
@[simp] theorem State.dropLock_draws (s : State) : (s.dropLock).draws = s.draws := rfl
@[simp] theorem State.dropLock_cmd (s : State) : (s.dropLock).cmd = s.cmd := rfl
@[simp] theorem State.dropLock_cmdFrame (s : State) : (s.dropLock).cmdFrame = s.cmdFrame := rfl
@[simp] theorem State.dropLock_respSize (s : State) : (s.dropLock).respSize = s.respSize := rfl
@[simp] theorem State.dropLock_respFrame (s : State) : (s.dropLock).respFrame = s.respFrame := rfl
@[simp] theorem State.dropLock_during (s : State) : (s.dropLock).during = s.during := rfl
@[simp] theorem State.dropLock_sched (s : State) : (s.dropLock).sched = s.sched := rfl
@[simp] theorem State.dropLock_report (s : State) : (s.dropLock).report = s.report := rfl

@[simp] theorem State.bindRx_cfg (a : Nat) (s : State) : (State.bindRx a s).cfg = s.cfg := rfl
@[simp] theorem State.bindRx_inited (a : Nat) (s : State) : (State.bindRx a s).inited = s.inited := rfl
@[simp] theorem State.bindRx_lock (a : Nat) (s : State) : (State.bindRx a s).lock = s.lock := rfl
@[simp] theorem State.bindRx_linkPhase (a : Nat) (s : State) : (State.bindRx a s).linkPhase = s.linkPhase := rfl
@[simp] theorem State.bindRx_pendA (a : Nat) (s : State) : (State.bindRx a s).pendA = s.pendA := rfl
@[simp] theorem State.bindRx_pendD (a : Nat) (s : State) : (State.bindRx a s).pendD = s.pendD := rfl
@[simp] theorem State.bindRx_syncFault (a : Nat) (s : State) : (State.bindRx a s).syncFault = s.syncFault := rfl
@[simp] theorem State.bindRx_hseq (a : Nat) (s : State) : (State.bindRx a s).hseq = s.hseq := rfl
@[simp] theorem State.bindRx_hcmd (a : Nat) (s : State) : (State.bindRx a s).hcmd = s.hcmd := rfl
@[simp] theorem State.bindRx_outCursor (a : Nat) (s : State) : (State.bindRx a s).outCursor = s.outCursor := rfl
@[simp] theorem State.bindRx_outCount (a : Nat) (s : State) : (State.bindRx a s).outCount = s.outCount := rfl
@[simp] theorem State.bindRx_inCursor (a : Nat) (s : State) : (State.bindRx a s).inCursor = s.inCursor := rfl
@[simp] theorem State.bindRx_inCount (a : Nat) (s : State) : (State.bindRx a s).inCount = s.inCount := rfl
@[simp] theorem State.bindRx_rxAddr (a : Nat) (s : State) : (State.bindRx a s).rxAddr = a := rfl
@[simp] theorem State.bindRx_rxLen (a : Nat) (s : State) : (State.bindRx a s).rxLen = s.cfg.frameSize := rfl
@[simp] theorem State.bindRx_txAddr (a : Nat) (s : State) : (State.bindRx a s).txAddr = s.txAddr := rfl
@[simp] theorem State.bindRx_txLen (a : Nat) (s : State) : (State.bindRx a s).txLen = s.txLen := rfl
@[simp] theorem State.bindRx_rxTrigEn (a : Nat) (s : State) : (State.bindRx a s).rxTrigEn = s.rxTrigEn := rfl
@[simp] theorem State.bindRx_txTrigEn (a : Nat) (s : State) : (State.bindRx a s).txTrigEn = s.txTrigEn := rfl
@[simp] theorem State.bindRx_mem (a : Nat) (s : State) : (State.bindRx a s).mem = s.mem := rfl
@[simp] theorem State.bindRx_epoch (a : Nat) (s : State) : (State.bindRx a s).epoch = s.epoch := rfl
@[simp] theorem State.bindRx_sel (a : Nat) (s : State) : (State.bindRx a s).sel = s.sel := rfl
@[simp] theorem State.bindRx_rxRemain (a : Nat) (s : State) : (State.bindRx a s).rxRemain = s.cfg.frameSize := rfl
@[simp] theorem State.bindRx_txRemain (a : Nat) (s : State) : (State.bindRx a s).txRemain = s.txRemain := rfl
@[simp] theorem State.bindRx_rxq (a : Nat) (s : State) : (State.bindRx a s).rxq = s.rxq := rfl
@[simp] theorem State.bindRx_txq (a : Nat) (s : State) : (State.bindRx a s).txq = s.txq := rfl
@[simp] theorem State.bindRx_masterLog (a : Nat) (s : State) : (State.bindRx a s).masterLog = s.masterLog := rfl
@[simp] theorem State.bindRx_draws (a : Nat) (s : State) : (State.bindRx a s).draws = s.draws := rfl
@[simp] theorem State.bindRx_cmd (a : Nat) (s : State) : (State.bindRx a s).cmd = s.cmd := rfl
@[simp] theorem State.bindRx_cmdFrame (a : Nat) (s : State) : (State.bindRx a s).cmdFrame = s.cmdFrame := rfl
@[simp] theorem State.bindRx_respSize (a : Nat) (s : State) : (State.bindRx a s).respSize = s.respSize := rfl
@[simp] theorem State.bindRx_respFrame (a : Nat) (s : State) : (State.bindRx a s).respFrame = s.respFrame := rfl
@[simp] theorem State.bindRx_during (a : Nat) (s : State) : (State.bindRx a s).during = s.during := rfl
@[simp] theorem State.bindRx_sched (a : Nat) (s : State) : (State.bindRx a s).sched = s.sched := rfl
@[simp] theorem State.bindRx_report (a : Nat) (s : State) : (State.bindRx a s).report = { s.report with rxLoad := true } := rfl

@[simp] theorem State.bindTx_cfg (a : Nat) (s : State) : (State.bindTx a s).cfg = s.cfg := rfl
@[simp] theorem State.bindTx_inited (a : Nat) (s : State) : (State.bindTx a s).inited = s.inited := rfl
@[simp] theorem State.bindTx_lock (a : Nat) (s : State) : (State.bindTx a s).lock = s.lock := rfl
@[simp] theorem State.bindTx_linkPhase (a : Nat) (s : State) : (State.bindTx a s).linkPhase = s.linkPhase := rfl
@[simp] theorem State.bindTx_pendA (a : Nat) (s : State) : (State.bindTx a s).pendA = s.pendA := rfl
@[simp] theorem State.bindTx_pendD (a : Nat) (s : State) : (State.bindTx a s).pendD = s.pendD := rfl
@[simp] theorem State.bindTx_syncFault (a : Nat) (s : State) : (State.bindTx a s).syncFault = s.syncFault := rfl
@[simp] theorem State.bindTx_hseq (a : Nat) (s : State) : (State.bindTx a s).hseq = s.hseq := rfl
@[simp] theorem State.bindTx_hcmd (a : Nat) (s : State) : (State.bindTx a s).hcmd = s.hcmd := rfl
@[simp] theorem State.bindTx_outCursor (a : Nat) (s : State) : (State.bindTx a s).outCursor = s.outCursor := rfl
@[simp] theorem State.bindTx_outCount (a : Nat) (s : State) : (State.bindTx a s).outCount = s.outCount := rfl
@[simp] theorem State.bindTx_inCursor (a : Nat) (s : State) : (State.bindTx a s).inCursor = s.inCursor := rfl
@[simp] theorem State.bindTx_inCount (a : Nat) (s : State) : (State.bindTx a s).inCount = s.inCount := rfl
@[simp] theorem State.bindTx_rxAddr (a : Nat) (s : State) : (State.bindTx a s).rxAddr = s.rxAddr := rfl
@[simp] theorem State.bindTx_rxLen (a : Nat) (s : State) : (State.bindTx a s).rxLen = s.rxLen := rfl
@[simp] theorem State.bindTx_txAddr (a : Nat) (s : State) : (State.bindTx a s).txAddr = a := rfl
@[simp] theorem State.bindTx_txLen (a : Nat) (s : State) : (State.bindTx a s).txLen = s.cfg.frameSize := rfl
@[simp] theorem State.bindTx_rxTrigEn (a : Nat) (s : State) : (State.bindTx a s).rxTrigEn = s.rxTrigEn := rfl
@[simp] theorem State.bindTx_txTrigEn (a : Nat) (s : State) : (State.bindTx a s).txTrigEn = s.txTrigEn := rfl
@[simp] theorem State.bindTx_mem (a : Nat) (s : State) : (State.bindTx a s).mem = s.mem := rfl
@[simp] theorem State.bindTx_epoch (a : Nat) (s : State) : (State.bindTx a s).epoch = s.epoch := rfl
@[simp] theorem State.bindTx_sel (a : Nat) (s : State) : (State.bindTx a s).sel = s.sel := rfl
@[simp] theorem State.bindTx_rxRemain (a : Nat) (s : State) : (State.bindTx a s).rxRemain = s.rxRemain := rfl
@[simp] theorem State.bindTx_txRemain (a : Nat) (s : State) : (State.bindTx a s).txRemain = s.cfg.frameSize := rfl
@[simp] theorem State.bindTx_rxq (a : Nat) (s : State) : (State.bindTx a s).rxq = s.rxq := rfl
@[simp] theorem State.bindTx_txq (a : Nat) (s : State) : (State.bindTx a s).txq = s.txq := rfl
@[simp] theorem State.bindTx_masterLog (a : Nat) (s : State) : (State.bindTx a s).masterLog = s.masterLog := rfl
@[simp] theorem State.bindTx_draws (a : Nat) (s : State) : (State.bindTx a s).draws = s.draws := rfl
@[simp] theorem State.bindTx_cmd (a : Nat) (s : State) : (State.bindTx a s).cmd = s.cmd := rfl
@[simp] theorem State.bindTx_cmdFrame (a : Nat) (s : State) : (State.bindTx a s).cmdFrame = s.cmdFrame := rfl
@[simp] theorem State.bindTx_respSize (a : Nat) (s : State) : (State.bindTx a s).respSize = s.respSize := rfl
@[simp] theorem State.bindTx_respFrame (a : Nat) (s : State) : (State.bindTx a s).respFrame = s.respFrame := rfl
@[simp] theorem State.bindTx_during (a : Nat) (s : State) : (State.bindTx a s).during = s.during := rfl
@[simp] theorem State.bindTx_sched (a : Nat) (s : State) : (State.bindTx a s).sched = s.sched := rfl
@[simp] theorem State.bindTx_report (a : Nat) (s : State) : (State.bindTx a s).report = { s.report with txLoad := true } := rfl

@[simp] theorem State.haltEngine_cfg (s : State) : (s.haltEngine).cfg = s.cfg := rfl
@[simp] theorem State.haltEngine_inited (s : State) : (s.haltEngine).inited = s.inited := rfl
@[simp] theorem State.haltEngine_lock (s : State) : (s.haltEngine).lock = s.lock := rfl
@[simp] theorem State.haltEngine_linkPhase (s : State) : (s.haltEngine).linkPhase = s.linkPhase := rfl
@[simp] theorem State.haltEngine_pendA (s : State) : (s.haltEngine).pendA = s.pendA := rfl
@[simp] theorem State.haltEngine_pendD (s : State) : (s.haltEngine).pendD = s.pendD := rfl
@[simp] theorem State.haltEngine_syncFault (s : State) : (s.haltEngine).syncFault = s.syncFault := rfl
@[simp] theorem State.haltEngine_hseq (s : State) : (s.haltEngine).hseq = s.hseq := rfl
@[simp] theorem State.haltEngine_hcmd (s : State) : (s.haltEngine).hcmd = s.hcmd := rfl
@[simp] theorem State.haltEngine_outCursor (s : State) : (s.haltEngine).outCursor = s.outCursor := rfl
@[simp] theorem State.haltEngine_outCount (s : State) : (s.haltEngine).outCount = s.outCount := rfl
@[simp] theorem State.haltEngine_inCursor (s : State) : (s.haltEngine).inCursor = s.inCursor := rfl
@[simp] theorem State.haltEngine_inCount (s : State) : (s.haltEngine).inCount = s.inCount := rfl
@[simp] theorem State.haltEngine_rxAddr (s : State) : (s.haltEngine).rxAddr = s.rxAddr := rfl
@[simp] theorem State.haltEngine_rxLen (s : State) : (s.haltEngine).rxLen = s.rxLen := rfl
@[simp] theorem State.haltEngine_txAddr (s : State) : (s.haltEngine).txAddr = s.txAddr := rfl
@[simp] theorem State.haltEngine_txLen (s : State) : (s.haltEngine).txLen = s.txLen := rfl
@[simp] theorem State.haltEngine_rxTrigEn (s : State) : (s.haltEngine).rxTrigEn = false := rfl
@[simp] theorem State.haltEngine_txTrigEn (s : State) : (s.haltEngine).txTrigEn = false := rfl
@[simp] theorem State.haltEngine_mem (s : State) : (s.haltEngine).mem = s.mem := rfl
@[simp] theorem State.haltEngine_epoch (s : State) : (s.haltEngine).epoch = s.epoch := rfl
@[simp] theorem State.haltEngine_sel (s : State) : (s.haltEngine).sel = s.sel := rfl
@[simp] theorem State.haltEngine_rxRemain (s : State) : (s.haltEngine).rxRemain = 0 := rfl
@[simp] theorem State.haltEngine_txRemain (s : State) : (s.haltEngine).txRemain = 0 := rfl
@[simp] theorem State.haltEngine_rxq (s : State) : (s.haltEngine).rxq = s.rxq := rfl
@[simp] theorem State.haltEngine_txq (s : State) : (s.haltEngine).txq = s.txq := rfl
@[simp] theorem State.haltEngine_masterLog (s : State) : (s.haltEngine).masterLog = s.masterLog := rfl
@[simp] theorem State.haltEngine_draws (s : State) : (s.haltEngine).draws = s.draws := rfl
@[simp] theorem State.haltEngine_cmd (s : State) : (s.haltEngine).cmd = s.cmd := rfl
@[simp] theorem State.haltEngine_cmdFrame (s : State) : (s.haltEngine).cmdFrame = s.cmdFrame := rfl
@[simp] theorem State.haltEngine_respSize (s : State) : (s.haltEngine).respSize = s.respSize := rfl
@[simp] theorem State.haltEngine_respFrame (s : State) : (s.haltEngine).respFrame = s.respFrame := rfl
@[simp] theorem State.haltEngine_during (s : State) : (s.haltEngine).during = s.during := rfl
@[simp] theorem State.haltEngine_sched (s : State) : (s.haltEngine).sched = s.sched := rfl
@[simp] theorem State.haltEngine_report (s : State) : (s.haltEngine).report = { s.report with rxAbort := true, txAbort := true } := rfl

@[simp] theorem State.drainRxq_cfg (s : State) : (s.drainRxq).cfg = s.cfg := rfl
@[simp] theorem State.drainRxq_inited (s : State) : (s.drainRxq).inited = s.inited := rfl
@[simp] theorem State.drainRxq_lock (s : State) : (s.drainRxq).lock = s.lock := rfl
@[simp] theorem State.drainRxq_linkPhase (s : State) : (s.drainRxq).linkPhase = s.linkPhase := rfl
@[simp] theorem State.drainRxq_pendA (s : State) : (s.drainRxq).pendA = s.pendA := rfl
@[simp] theorem State.drainRxq_pendD (s : State) : (s.drainRxq).pendD = s.pendD := rfl
@[simp] theorem State.drainRxq_syncFault (s : State) : (s.drainRxq).syncFault = s.syncFault := rfl
@[simp] theorem State.drainRxq_hseq (s : State) : (s.drainRxq).hseq = s.hseq := rfl
@[simp] theorem State.drainRxq_hcmd (s : State) : (s.drainRxq).hcmd = s.hcmd := rfl
@[simp] theorem State.drainRxq_outCursor (s : State) : (s.drainRxq).outCursor = s.outCursor := rfl
@[simp] theorem State.drainRxq_outCount (s : State) : (s.drainRxq).outCount = s.outCount := rfl
@[simp] theorem State.drainRxq_inCursor (s : State) : (s.drainRxq).inCursor = s.inCursor := rfl
@[simp] theorem State.drainRxq_inCount (s : State) : (s.drainRxq).inCount = s.inCount := rfl
@[simp] theorem State.drainRxq_rxAddr (s : State) : (s.drainRxq).rxAddr = s.rxAddr := rfl
@[simp] theorem State.drainRxq_rxLen (s : State) : (s.drainRxq).rxLen = s.rxLen := rfl
@[simp] theorem State.drainRxq_txAddr (s : State) : (s.drainRxq).txAddr = s.txAddr := rfl
@[simp] theorem State.drainRxq_txLen (s : State) : (s.drainRxq).txLen = s.txLen := rfl
@[simp] theorem State.drainRxq_rxTrigEn (s : State) : (s.drainRxq).rxTrigEn = s.rxTrigEn := rfl
@[simp] theorem State.drainRxq_txTrigEn (s : State) : (s.drainRxq).txTrigEn = s.txTrigEn := rfl
@[simp] theorem State.drainRxq_mem (s : State) : (s.drainRxq).mem = s.mem := rfl
@[simp] theorem State.drainRxq_epoch (s : State) : (s.drainRxq).epoch = s.epoch := rfl
@[simp] theorem State.drainRxq_sel (s : State) : (s.drainRxq).sel = s.sel := rfl
@[simp] theorem State.drainRxq_rxRemain (s : State) : (s.drainRxq).rxRemain = s.rxRemain := rfl
@[simp] theorem State.drainRxq_txRemain (s : State) : (s.drainRxq).txRemain = s.txRemain := rfl
@[simp] theorem State.drainRxq_rxq (s : State) : (s.drainRxq).rxq = [] := rfl
@[simp] theorem State.drainRxq_txq (s : State) : (s.drainRxq).txq = s.txq := rfl
@[simp] theorem State.drainRxq_masterLog (s : State) : (s.drainRxq).masterLog = s.masterLog := rfl
@[simp] theorem State.drainRxq_draws (s : State) : (s.drainRxq).draws = s.draws := rfl
@[simp] theorem State.drainRxq_cmd (s : State) : (s.drainRxq).cmd = s.cmd := rfl
@[simp] theorem State.drainRxq_cmdFrame (s : State) : (s.drainRxq).cmdFrame = s.cmdFrame := rfl
@[simp] theorem State.drainRxq_respSize (s : State) : (s.drainRxq).respSize = s.respSize := rfl
@[simp] theorem State.drainRxq_respFrame (s : State) : (s.drainRxq).respFrame = s.respFrame := rfl
@[simp] theorem State.drainRxq_during (s : State) : (s.drainRxq).during = s.during := rfl
@[simp] theorem State.drainRxq_sched (s : State) : (s.drainRxq).sched = s.sched := rfl
@[simp] theorem State.drainRxq_report (s : State) : (s.drainRxq).report = { s.report with rxqPops := s.report.rxqPops + s.rxq.length } := rfl

@[simp] theorem State.setTrig_cfg (t r : Bool) (s : State) : (State.setTrig t r s).cfg = s.cfg := rfl
@[simp] theorem State.setTrig_inited (t r : Bool) (s : State) : (State.setTrig t r s).inited = s.inited := rfl
@[simp] theorem State.setTrig_lock (t r : Bool) (s : State) : (State.setTrig t r s).lock = s.lock := rfl
@[simp] theorem State.setTrig_linkPhase (t r : Bool) (s : State) : (State.setTrig t r s).linkPhase = s.linkPhase := rfl
@[simp] theorem State.setTrig_pendA (t r : Bool) (s : State) : (State.setTrig t r s).pendA = s.pendA := rfl
@[simp] theorem State.setTrig_pendD (t r : Bool) (s : State) : (State.setTrig t r s).pendD = s.pendD := rfl
@[simp] theorem State.setTrig_syncFault (t r : Bool) (s : State) : (State.setTrig t r s).syncFault = s.syncFault := rfl
@[simp] theorem State.setTrig_hseq (t r : Bool) (s : State) : (State.setTrig t r s).hseq = s.hseq := rfl
@[simp] theorem State.setTrig_hcmd (t r : Bool) (s : State) : (State.setTrig t r s).hcmd = s.hcmd := rfl
@[simp] theorem State.setTrig_outCursor (t r : Bool) (s : State) : (State.setTrig t r s).outCursor = s.outCursor := rfl
@[simp] theorem State.setTrig_outCount (t r : Bool) (s : State) : (State.setTrig t r s).outCount = s.outCount := rfl
@[simp] theorem State.setTrig_inCursor (t r : Bool) (s : State) : (State.setTrig t r s).inCursor = s.inCursor := rfl
@[simp] theorem State.setTrig_inCount (t r : Bool) (s : State) : (State.setTrig t r s).inCount = s.inCount := rfl
@[simp] theorem State.setTrig_rxAddr (t r : Bool) (s : State) : (State.setTrig t r s).rxAddr = s.rxAddr := rfl
@[simp] theorem State.setTrig_rxLen (t r : Bool) (s : State) : (State.setTrig t r s).rxLen = s.rxLen := rfl
@[simp] theorem State.setTrig_txAddr (t r : Bool) (s : State) : (State.setTrig t r s).txAddr = s.txAddr := rfl
@[simp] theorem State.setTrig_txLen (t r : Bool) (s : State) : (State.setTrig t r s).txLen = s.txLen := rfl
@[simp] theorem State.setTrig_rxTrigEn (t r : Bool) (s : State) : (State.setTrig t r s).rxTrigEn = r := rfl
@[simp] theorem State.setTrig_txTrigEn (t r : Bool) (s : State) : (State.setTrig t r s).txTrigEn = t := rfl
@[simp] theorem State.setTrig_mem (t r : Bool) (s : State) : (State.setTrig t r s).mem = s.mem := rfl
@[simp] theorem State.setTrig_epoch (t r : Bool) (s : State) : (State.setTrig t r s).epoch = s.epoch := rfl
@[simp] theorem State.setTrig_sel (t r : Bool) (s : State) : (State.setTrig t r s).sel = s.sel := rfl
@[simp] theorem State.setTrig_rxRemain (t r : Bool) (s : State) : (State.setTrig t r s).rxRemain = s.rxRemain := rfl
@[simp] theorem State.setTrig_txRemain (t r : Bool) (s : State) : (State.setTrig t r s).txRemain = s.txRemain := rfl
@[simp] theorem State.setTrig_rxq (t r : Bool) (s : State) : (State.setTrig t r s).rxq = s.rxq := rfl
@[simp] theorem State.setTrig_txq (t r : Bool) (s : State) : (State.setTrig t r s).txq = s.txq := rfl
@[simp] theorem State.setTrig_masterLog (t r : Bool) (s : State) : (State.setTrig t r s).masterLog = s.masterLog := rfl
@[simp] theorem State.setTrig_draws (t r : Bool) (s : State) : (State.setTrig t r s).draws = s.draws := rfl
@[simp] theorem State.setTrig_cmd (t r : Bool) (s : State) : (State.setTrig t r s).cmd = s.cmd := rfl
@[simp] theorem State.setTrig_cmdFrame (t r : Bool) (s : State) : (State.setTrig t r s).cmdFrame = s.cmdFrame := rfl
@[simp] theorem State.setTrig_respSize (t r : Bool) (s : State) : (State.setTrig t r s).respSize = s.respSize := rfl
@[simp] theorem State.setTrig_respFrame (t r : Bool) (s : State) : (State.setTrig t r s).respFrame = s.respFrame := rfl
@[simp] theorem State.setTrig_during (t r : Bool) (s : State) : (State.setTrig t r s).during = s.during := rfl
@[simp] theorem State.setTrig_sched (t r : Bool) (s : State) : (State.setTrig t r s).sched = s.sched := rfl
@[simp] theorem State.setTrig_report (t r : Bool) (s : State) : (State.setTrig t r s).report = s.report := rfl

@[simp] theorem State.hostAcquire_cfg (c : HostCmd) (s : State) : (State.hostAcquire c s).cfg = s.cfg := rfl
@[simp] theorem State.hostAcquire_inited (c : HostCmd) (s : State) : (State.hostAcquire c s).inited = s.inited := rfl
@[simp] theorem State.hostAcquire_lock (c : HostCmd) (s : State) : (State.hostAcquire c s).lock = true := rfl
@[simp] theorem State.hostAcquire_linkPhase (c : HostCmd) (s : State) : (State.hostAcquire c s).linkPhase = s.linkPhase := rfl
@[simp] theorem State.hostAcquire_pendA (c : HostCmd) (s : State) : (State.hostAcquire c s).pendA = s.pendA := rfl
@[simp] theorem State.hostAcquire_pendD (c : HostCmd) (s : State) : (State.hostAcquire c s).pendD = s.pendD := rfl
@[simp] theorem State.hostAcquire_syncFault (c : HostCmd) (s : State) : (State.hostAcquire c s).syncFault = s.syncFault := rfl
@[simp] theorem State.hostAcquire_hseq (c : HostCmd) (s : State) : (State.hostAcquire c s).hseq = .held := rfl
@[simp] theorem State.hostAcquire_hcmd (c : HostCmd) (s : State) : (State.hostAcquire c s).hcmd = c := rfl
@[simp] theorem State.hostAcquire_outCursor (c : HostCmd) (s : State) : (State.hostAcquire c s).outCursor = s.outCursor := rfl
@[simp] theorem State.hostAcquire_outCount (c : HostCmd) (s : State) : (State.hostAcquire c s).outCount = s.outCount := rfl
@[simp] theorem State.hostAcquire_inCursor (c : HostCmd) (s : State) : (State.hostAcquire c s).inCursor = s.inCursor := rfl
@[simp] theorem State.hostAcquire_inCount (c : HostCmd) (s : State) : (State.hostAcquire c s).inCount = s.inCount := rfl
@[simp] theorem State.hostAcquire_rxAddr (c : HostCmd) (s : State) : (State.hostAcquire c s).rxAddr = s.rxAddr := rfl
@[simp] theorem State.hostAcquire_rxLen (c : HostCmd) (s : State) : (State.hostAcquire c s).rxLen = s.rxLen := rfl
@[simp] theorem State.hostAcquire_txAddr (c : HostCmd) (s : State) : (State.hostAcquire c s).txAddr = s.txAddr := rfl
@[simp] theorem State.hostAcquire_txLen (c : HostCmd) (s : State) : (State.hostAcquire c s).txLen = s.txLen := rfl
@[simp] theorem State.hostAcquire_rxTrigEn (c : HostCmd) (s : State) : (State.hostAcquire c s).rxTrigEn = s.rxTrigEn := rfl
@[simp] theorem State.hostAcquire_txTrigEn (c : HostCmd) (s : State) : (State.hostAcquire c s).txTrigEn = s.txTrigEn := rfl
@[simp] theorem State.hostAcquire_mem (c : HostCmd) (s : State) : (State.hostAcquire c s).mem = s.mem := rfl
@[simp] theorem State.hostAcquire_epoch (c : HostCmd) (s : State) : (State.hostAcquire c s).epoch = s.epoch := rfl
@[simp] theorem State.hostAcquire_sel (c : HostCmd) (s : State) : (State.hostAcquire c s).sel = s.sel := rfl
@[simp] theorem State.hostAcquire_rxRemain (c : HostCmd) (s : State) : (State.hostAcquire c s).rxRemain = s.rxRemain := rfl
@[simp] theorem State.hostAcquire_txRemain (c : HostCmd) (s : State) : (State.hostAcquire c s).txRemain = s.txRemain := rfl
@[simp] theorem State.hostAcquire_rxq (c : HostCmd) (s : State) : (State.hostAcquire c s).rxq = s.rxq := rfl
@[simp] theorem State.hostAcquire_txq (c : HostCmd) (s : State) : (State.hostAcquire c s).txq = s.txq := rfl
@[simp] theorem State.hostAcquire_masterLog (c : HostCmd) (s : State) : (State.hostAcquire c s).masterLog = s.masterLog := rfl
@[simp] theorem State.hostAcquire_draws (c : HostCmd) (s : State) : (State.hostAcquire c s).draws = s.draws := rfl
@[simp] theorem State.hostAcquire_cmd (c : HostCmd) (s : State) : (State.hostAcquire c s).cmd = s.cmd := rfl
@[simp] theorem State.hostAcquire_cmdFrame (c : HostCmd) (s : State) : (State.hostAcquire c s).cmdFrame = s.cmdFrame := rfl
@[simp] theorem State.hostAcquire_respSize (c : HostCmd) (s : State) : (State.hostAcquire c s).respSize = s.respSize := rfl
@[simp] theorem State.hostAcquire_respFrame (c : HostCmd) (s : State) : (State.hostAcquire c s).respFrame = s.respFrame := rfl
@[simp] theorem State.hostAcquire_during (c : HostCmd) (s : State) : (State.hostAcquire c s).during = s.during := rfl
@[simp] theorem State.hostAcquire_sched (c : HostCmd) (s : State) : (State.hostAcquire c s).sched = s.sched := rfl
@[simp] theorem State.hostAcquire_report (c : HostCmd) (s : State) : (State.hostAcquire c s).report = s.report := rfl

@[simp] theorem State.hostRelease_cfg (s : State) : (s.hostRelease).cfg = s.cfg := rfl
@[simp] theorem State.hostRelease_inited (s : State) : (s.hostRelease).inited = s.inited := rfl
@[simp] theorem State.hostRelease_lock (s : State) : (s.hostRelease).lock = false := rfl
@[simp] theorem State.hostRelease_linkPhase (s : State) : (s.hostRelease).linkPhase = s.linkPhase := rfl
@[simp] theorem State.hostRelease_pendA (s : State) : (s.hostRelease).pendA = s.pendA := rfl
@[simp] theorem State.hostRelease_pendD (s : State) : (s.hostRelease).pendD = s.pendD := rfl
@[simp] theorem State.hostRelease_syncFault (s : State) : (s.hostRelease).syncFault = s.syncFault := rfl
@[simp] theorem State.hostRelease_hseq (s : State) : (s.hostRelease).hseq = .idle := rfl
@[simp] theorem State.hostRelease_hcmd (s : State) : (s.hostRelease).hcmd = s.hcmd := rfl
@[simp] theorem State.hostRelease_outCursor (s : State) : (s.hostRelease).outCursor = s.outCursor := rfl
@[simp] theorem State.hostRelease_outCount (s : State) : (s.hostRelease).outCount = s.outCount := rfl
@[simp] theorem State.hostRelease_inCursor (s : State) : (s.hostRelease).inCursor = s.inCursor := rfl
@[simp] theorem State.hostRelease_inCount (s : State) : (s.hostRelease).inCount = s.inCount := rfl
@[simp] theorem State.hostRelease_rxAddr (s : State) : (s.hostRelease).rxAddr = s.rxAddr := rfl
@[simp] theorem State.hostRelease_rxLen (s : State) : (s.hostRelease).rxLen = s.rxLen := rfl
@[simp] theorem State.hostRelease_txAddr (s : State) : (s.hostRelease).txAddr = s.txAddr := rfl
@[simp] theorem State.hostRelease_txLen (s : State) : (s.hostRelease).txLen = s.txLen := rfl
@[simp] theorem State.hostRelease_rxTrigEn (s : State) : (s.hostRelease).rxTrigEn = s.rxTrigEn := rfl
@[simp] theorem State.hostRelease_txTrigEn (s : State) : (s.hostRelease).txTrigEn = s.txTrigEn := rfl
@[simp] theorem State.hostRelease_mem (s : State) : (s.hostRelease).mem = s.mem := rfl
@[simp] theorem State.hostRelease_epoch (s : State) : (s.hostRelease).epoch = s.epoch := rfl
@[simp] theorem State.hostRelease_sel (s : State) : (s.hostRelease).sel = s.sel := rfl
@[simp] theorem State.hostRelease_rxRemain (s : State) : (s.hostRelease).rxRemain = s.rxRemain := rfl
@[simp] theorem State.hostRelease_txRemain (s : State) : (s.hostRelease).txRemain = s.txRemain := rfl
@[simp] theorem State.hostRelease_rxq (s : State) : (s.hostRelease).rxq = s.rxq := rfl
@[simp] theorem State.hostRelease_txq (s : State) : (s.hostRelease).txq = s.txq := rfl
@[simp] theorem State.hostRelease_masterLog (s : State) : (s.hostRelease).masterLog = s.masterLog := rfl
@[simp] theorem State.hostRelease_draws (s : State) : (s.hostRelease).draws = s.draws := rfl
@[simp] theorem State.hostRelease_cmd (s : State) : (s.hostRelease).cmd = s.cmd := rfl
@[simp] theorem State.hostRelease_cmdFrame (s : State) : (s.hostRelease).cmdFrame = s.cmdFrame := rfl
@[simp] theorem State.hostRelease_respSize (s : State) : (s.hostRelease).respSize = s.respSize := rfl
@[simp] theorem State.hostRelease_respFrame (s : State) : (s.hostRelease).respFrame = s.respFrame := rfl
@[simp] theorem State.hostRelease_during (s : State) : (s.hostRelease).during = s.during := rfl
@[simp] theorem State.hostRelease_sched (s : State) : (s.hostRelease).sched = s.sched := rfl
@[simp] theorem State.hostRelease_report (s : State) : (s.hostRelease).report = s.report := rfl

@[simp] theorem State.present_cfg (w : OpWord) (f : Nat) (s : State) : (State.present w f s).cfg = s.cfg := rfl
@[simp] theorem State.present_inited (w : OpWord) (f : Nat) (s : State) : (State.present w f s).inited = s.inited := rfl
@[simp] theorem State.present_lock (w : OpWord) (f : Nat) (s : State) : (State.present w f s).lock = s.lock := rfl
@[simp] theorem State.present_linkPhase (w : OpWord) (f : Nat) (s : State) : (State.present w f s).linkPhase = s.linkPhase := rfl
@[simp] theorem State.present_pendA (w : OpWord) (f : Nat) (s : State) : (State.present w f s).pendA = s.pendA := rfl
@[simp] theorem State.present_pendD (w : OpWord) (f : Nat) (s : State) : (State.present w f s).pendD = s.pendD := rfl
@[simp] theorem State.present_syncFault (w : OpWord) (f : Nat) (s : State) : (State.present w f s).syncFault = s.syncFault := rfl
@[simp] theorem State.present_hseq (w : OpWord) (f : Nat) (s : State) : (State.present w f s).hseq = s.hseq := rfl
@[simp] theorem State.present_hcmd (w : OpWord) (f : Nat) (s : State) : (State.present w f s).hcmd = s.hcmd := rfl
@[simp] theorem State.present_outCursor (w : OpWord) (f : Nat) (s : State) : (State.present w f s).outCursor = s.outCursor := rfl
@[simp] theorem State.present_outCount (w : OpWord) (f : Nat) (s : State) : (State.present w f s).outCount = s.outCount := rfl
@[simp] theorem State.present_inCursor (w : OpWord) (f : Nat) (s : State) : (State.present w f s).inCursor = s.inCursor := rfl
@[simp] theorem State.present_inCount (w : OpWord) (f : Nat) (s : State) : (State.present w f s).inCount = s.inCount := rfl
@[simp] theorem State.present_rxAddr (w : OpWord) (f : Nat) (s : State) : (State.present w f s).rxAddr = s.rxAddr := rfl
@[simp] theorem State.present_rxLen (w : OpWord) (f : Nat) (s : State) : (State.present w f s).rxLen = s.rxLen := rfl
@[simp] theorem State.present_txAddr (w : OpWord) (f : Nat) (s : State) : (State.present w f s).txAddr = s.txAddr := rfl
@[simp] theorem State.present_txLen (w : OpWord) (f : Nat) (s : State) : (State.present w f s).txLen = s.txLen := rfl
@[simp] theorem State.present_rxTrigEn (w : OpWord) (f : Nat) (s : State) : (State.present w f s).rxTrigEn = s.rxTrigEn := rfl
@[simp] theorem State.present_txTrigEn (w : OpWord) (f : Nat) (s : State) : (State.present w f s).txTrigEn = s.txTrigEn := rfl
@[simp] theorem State.present_mem (w : OpWord) (f : Nat) (s : State) : (State.present w f s).mem = s.mem := rfl
@[simp] theorem State.present_epoch (w : OpWord) (f : Nat) (s : State) : (State.present w f s).epoch = s.epoch := rfl
@[simp] theorem State.present_sel (w : OpWord) (f : Nat) (s : State) : (State.present w f s).sel = s.sel := rfl
@[simp] theorem State.present_rxRemain (w : OpWord) (f : Nat) (s : State) : (State.present w f s).rxRemain = s.rxRemain := rfl
@[simp] theorem State.present_txRemain (w : OpWord) (f : Nat) (s : State) : (State.present w f s).txRemain = s.txRemain := rfl
@[simp] theorem State.present_rxq (w : OpWord) (f : Nat) (s : State) : (State.present w f s).rxq = s.rxq := rfl
@[simp] theorem State.present_txq (w : OpWord) (f : Nat) (s : State) : (State.present w f s).txq = s.txq := rfl
@[simp] theorem State.present_masterLog (w : OpWord) (f : Nat) (s : State) : (State.present w f s).masterLog = s.masterLog := rfl
@[simp] theorem State.present_draws (w : OpWord) (f : Nat) (s : State) : (State.present w f s).draws = s.draws := rfl
@[simp] theorem State.present_cmd (w : OpWord) (f : Nat) (s : State) : (State.present w f s).cmd = w := rfl
@[simp] theorem State.present_cmdFrame (w : OpWord) (f : Nat) (s : State) : (State.present w f s).cmdFrame = f := rfl
@[simp] theorem State.present_respSize (w : OpWord) (f : Nat) (s : State) : (State.present w f s).respSize = s.respSize := rfl
@[simp] theorem State.present_respFrame (w : OpWord) (f : Nat) (s : State) : (State.present w f s).respFrame = s.respFrame := rfl
@[simp] theorem State.present_during (w : OpWord) (f : Nat) (s : State) : (State.present w f s).during = s.during := rfl
@[simp] theorem State.present_sched (w : OpWord) (f : Nat) (s : State) : (State.present w f s).sched = s.sched := rfl
@[simp] theorem State.present_report (w : OpWord) (f : Nat) (s : State) : (State.present w f s).report = s.report := rfl

@[simp] theorem State.begin_cfg (rest : List Turn) (s : State) : (State.begin rest s).cfg = s.cfg := rfl
@[simp] theorem State.begin_inited (rest : List Turn) (s : State) : (State.begin rest s).inited = s.inited := rfl
@[simp] theorem State.begin_lock (rest : List Turn) (s : State) : (State.begin rest s).lock = s.lock := rfl
@[simp] theorem State.begin_linkPhase (rest : List Turn) (s : State) : (State.begin rest s).linkPhase = s.linkPhase := rfl
@[simp] theorem State.begin_pendA (rest : List Turn) (s : State) : (State.begin rest s).pendA = s.pendA := rfl
@[simp] theorem State.begin_pendD (rest : List Turn) (s : State) : (State.begin rest s).pendD = s.pendD := rfl
@[simp] theorem State.begin_syncFault (rest : List Turn) (s : State) : (State.begin rest s).syncFault = s.syncFault := rfl
@[simp] theorem State.begin_hseq (rest : List Turn) (s : State) : (State.begin rest s).hseq = s.hseq := rfl
@[simp] theorem State.begin_hcmd (rest : List Turn) (s : State) : (State.begin rest s).hcmd = s.hcmd := rfl
@[simp] theorem State.begin_outCursor (rest : List Turn) (s : State) : (State.begin rest s).outCursor = s.outCursor := rfl
@[simp] theorem State.begin_outCount (rest : List Turn) (s : State) : (State.begin rest s).outCount = s.outCount := rfl
@[simp] theorem State.begin_inCursor (rest : List Turn) (s : State) : (State.begin rest s).inCursor = s.inCursor := rfl
@[simp] theorem State.begin_inCount (rest : List Turn) (s : State) : (State.begin rest s).inCount = s.inCount := rfl
@[simp] theorem State.begin_rxAddr (rest : List Turn) (s : State) : (State.begin rest s).rxAddr = s.rxAddr := rfl
@[simp] theorem State.begin_rxLen (rest : List Turn) (s : State) : (State.begin rest s).rxLen = s.rxLen := rfl
@[simp] theorem State.begin_txAddr (rest : List Turn) (s : State) : (State.begin rest s).txAddr = s.txAddr := rfl
@[simp] theorem State.begin_txLen (rest : List Turn) (s : State) : (State.begin rest s).txLen = s.txLen := rfl
@[simp] theorem State.begin_rxTrigEn (rest : List Turn) (s : State) : (State.begin rest s).rxTrigEn = s.rxTrigEn := rfl
@[simp] theorem State.begin_txTrigEn (rest : List Turn) (s : State) : (State.begin rest s).txTrigEn = s.txTrigEn := rfl
@[simp] theorem State.begin_mem (rest : List Turn) (s : State) : (State.begin rest s).mem = s.mem := rfl
@[simp] theorem State.begin_epoch (rest : List Turn) (s : State) : (State.begin rest s).epoch = s.epoch := rfl
@[simp] theorem State.begin_sel (rest : List Turn) (s : State) : (State.begin rest s).sel = s.sel := rfl
@[simp] theorem State.begin_rxRemain (rest : List Turn) (s : State) : (State.begin rest s).rxRemain = s.rxRemain := rfl
@[simp] theorem State.begin_txRemain (rest : List Turn) (s : State) : (State.begin rest s).txRemain = s.txRemain := rfl
@[simp] theorem State.begin_rxq (rest : List Turn) (s : State) : (State.begin rest s).rxq = s.rxq := rfl
@[simp] theorem State.begin_txq (rest : List Turn) (s : State) : (State.begin rest s).txq = s.txq := rfl
@[simp] theorem State.begin_masterLog (rest : List Turn) (s : State) : (State.begin rest s).masterLog = s.masterLog := rfl
@[simp] theorem State.begin_draws (rest : List Turn) (s : State) : (State.begin rest s).draws = s.draws := rfl
@[simp] theorem State.begin_cmd (rest : List Turn) (s : State) : (State.begin rest s).cmd = s.cmd := rfl
@[simp] theorem State.begin_cmdFrame (rest : List Turn) (s : State) : (State.begin rest s).cmdFrame = s.cmdFrame := rfl
@[simp] theorem State.begin_respSize (rest : List Turn) (s : State) : (State.begin rest s).respSize = s.respSize := rfl
@[simp] theorem State.begin_respFrame (rest : List Turn) (s : State) : (State.begin rest s).respFrame = s.respFrame := rfl
@[simp] theorem State.begin_during (rest : List Turn) (s : State) : (State.begin rest s).during = s.during := rfl
@[simp] theorem State.begin_sched (rest : List Turn) (s : State) : (State.begin rest s).sched = rest := rfl
@[simp] theorem State.begin_report (rest : List Turn) (s : State) : (State.begin rest s).report = Report.quiet := rfl

end Sys2Proof.Machine
end

