-- ==== Sys2Proof/Laws/Operations.lean ====
section
/-! SUPPORT. One equation for each shared operation that is built from others: the whole of what it does, as one
update of State. Proofs cite these instead of unfolding the operations. -/

namespace Sys2Proof.Machine

/-- Everything `TRY_RESERVE_OUT` can do (R113). -/
theorem State.reserveOut_eq (s : State) :
    s.reserveOut = { s with
      outCursor := if 0 < s.outCount then nextSlot s.cfg s.outCursor else s.outCursor
      outCount := if 0 < s.outCount then s.outCount - 1 else s.outCount
      report := { s.report with
        conds := if 0 < s.outCount then s.report.conds else s.report.conds ++ [.outboundEmpty] } } := by
  unfold State.reserveOut State.raise; split <;> rfl

/-- Everything `ADVANCE_IN` can do (R114). -/
theorem State.advanceIn_eq (s : State) :
    s.advanceIn = { s with
      inCount := if s.inCount = s.cfg.capacity then s.inCount else s.inCount + 1
      inCursor := nextSlot s.cfg s.inCursor
      report := { s.report with
        conds := if s.inCount = s.cfg.capacity then s.report.conds ++ [.inboundOverflow]
          else s.report.conds } } := by
  unfold State.advanceIn State.raise; split <;> rfl

/-- R132, in one expression. -/
theorem State.outboundTarget_eq (s : State) :
    s.outboundTarget = if 0 < s.outCount then slotAddr s.cfg s.cfg.outBase s.outCursor
      else s.cfg.zeroBase := by
  unfold State.outboundTarget State.reservedSlot; split <;> simp_all

/-- The report after `REARM` (R130, R222): both loads, and the conditions of both rings. -/
def rearmReport (s : State) : Report :=
  { s.report with
    rxLoad := true
    txLoad := true
    conds := s.report.conds ++
      ((if s.inCount = s.cfg.capacity then [Condition.inboundOverflow] else []) ++
       (if 0 < s.outCount then [] else [Condition.outboundEmpty])) }

/-- Everything `REARM` can do (R130): `LOCK` is 0 after it whatever it was. -/
theorem State.rearm_eq (s : State) :
    s.rearm = { s with
      lock := false
      inCount := if s.inCount = s.cfg.capacity then s.inCount else s.inCount + 1
      inCursor := nextSlot s.cfg s.inCursor
      rxAddr := slotAddr s.cfg s.cfg.inBase (nextSlot s.cfg s.inCursor)
      rxLen := s.cfg.frameSize
      rxRemain := s.cfg.frameSize
      outCursor := if 0 < s.outCount then nextSlot s.cfg s.outCursor else s.outCursor
      outCount := if 0 < s.outCount then s.outCount - 1 else s.outCount
      txAddr := if 0 < s.outCount then slotAddr s.cfg s.cfg.outBase s.outCursor else s.cfg.zeroBase
      txLen := s.cfg.frameSize
      txRemain := s.cfg.frameSize
      report := rearmReport s } := by
  unfold State.rearm State.rearmIn State.rearmOut rearmReport
  simp only [State.outboundTarget_eq, State.reserveOut_eq, State.advanceIn_eq]
  by_cases h₁ : s.inCount = s.cfg.capacity <;> by_cases h₂ : 0 < s.outCount <;>
    simp [State.takeLock, State.dropLock, State.bindRx, State.bindTx, h₁, h₂]

/-- Everything the deassert handler can do (R150), its event taken. -/
theorem State.handleDeassert_eq (s : State) :
    s.handleDeassert = { s with
      lock := false
      inCount := if s.inCount = s.cfg.capacity then s.inCount else s.inCount + 1
      inCursor := nextSlot s.cfg s.inCursor
      rxAddr := slotAddr s.cfg s.cfg.inBase (nextSlot s.cfg s.inCursor)
      rxLen := s.cfg.frameSize
      rxRemain := s.cfg.frameSize
      outCursor := if 0 < s.outCount then nextSlot s.cfg s.outCursor else s.outCursor
      outCount := if 0 < s.outCount then s.outCount - 1 else s.outCount
      txAddr := if 0 < s.outCount then slotAddr s.cfg s.cfg.outBase s.outCursor else s.cfg.zeroBase
      txLen := s.cfg.frameSize
      txRemain := s.cfg.frameSize
      rxTrigEn := true
      txTrigEn := true
      rxq := []
      report := rearmReport { s with report := { s.report with
        rxAbort := true, txAbort := true, rxqPops := s.report.rxqPops + s.rxq.length } } } := by
  unfold State.handleDeassert
  rw [State.rearm_eq]
  rfl

/-- Everything the assert handler can do (R149), its event taken. -/
theorem State.handleAssert_eq (s : State) :
    s.handleAssert = { s with
      rxTrigEn := true
      txTrigEn := s.txqEmpty
      report := { s.report with
        conds := if s.txqEmpty then s.report.conds else s.report.conds ++ [.staleTxQueue] } } := by
  unfold State.handleAssert State.setTrig State.raise
  cases s.txqEmpty <;> rfl

/-- Everything the service entry can do (R224). -/
theorem State.takeEvent_eq (e : Edge) (s : State) :
    State.takeEvent e s = { s with
      pendA := if e = .asserted then false else s.pendA
      pendD := if e = .deasserted then false else s.pendD } := by
  cases e <;> rfl

/-- Everything `INIT` can do (R165). -/
theorem State.initialised_eq (s : State) :
    s.initialised = { s with
      outCursor := 0
      outCount := 0
      inCursor := 0
      inCount := 0
      rxAddr := s.cfg.inBase
      rxLen := s.cfg.frameSize
      rxRemain := s.cfg.frameSize
      txAddr := s.cfg.zeroBase
      txLen := s.cfg.frameSize
      txRemain := s.cfg.frameSize
      rxTrigEn := true
      txTrigEn := true
      linkPhase := LinkPhase.ofLevel s.sel
      pendA := false
      pendD := false
      inited := true
      report := { s.report with rxLoad := true, txLoad := true } } := by
  simp [State.initialised, State.bindRx, State.bindTx, slotAddr, State.inSel]

/-- Everything `DETECT` can do (R146, R147). -/
theorem State.detect_eq (s : State) :
    s.detect = { s with
      linkPhase := if s.edgeSeen then LinkPhase.ofLevel s.sel else s.linkPhase
      pendA := s.pendA || (s.edgeSeen && s.sel)
      pendD := s.pendD || (s.edgeSeen && !s.sel)
      syncFault := s.syncFault ||
        (s.edgeSeen && (if s.sel then s.pendA else s.pendD))
      report := { s.report with
        conds := if (s.edgeSeen && (if s.sel then s.pendA else s.pendD)) = true
          then s.report.conds ++ [.syncFault] else s.report.conds } } := by
  obtain ⟨⟩ := s
  rename_i sel _ _ _ _ _ _ _ _ _ _ _ _ _
  unfold State.detect State.loseEdge State.raise State.inSel
  dsimp only
  split <;> rename_i h <;> simp only [h]
  · split <;> split <;> simp_all
  · simp

/-- All that the service choice can say (R148). -/
theorem State.serviceChoice_some {s : State} {e : Edge} (h : s.serviceChoice = some e) :
    s.inited = true ∧ s.lock = false ∧
      ((e = .asserted ∧ s.pendA = true ∧ (s.pendD = true → s.linkPhase = .idle)) ∨
       (e = .deasserted ∧ s.pendD = true ∧ (s.pendA = true → s.linkPhase = .active))) := by
  unfold State.serviceChoice State.oldestPending at h
  split at h
  · rename_i hg
    refine ⟨hg.1, hg.2, ?_⟩
    revert h
    cases s.pendA <;> cases s.pendD <;> cases s.linkPhase <;> cases e <;> simp
  · cases h

end Sys2Proof.Machine
end

