-- ==== Sys2Proof/Laws/Environment.lean ====
section
/-! SUPPORT. What a step of an agent outside the block can change (`45_environment.md`), and what a frame copy can
do with such steps inside it (`20_memory.md` R79). -/

namespace Sys2Proof.Machine

/-- `t` differs from `s` at most in what the agents outside the block and the detector write, and in the
conditions of the report. -/
structure State.EnvKeeps (s t : State) : Prop where
  cfg : t.cfg = s.cfg
  inited : t.inited = s.inited
  lock : t.lock = s.lock
  hseq : t.hseq = s.hseq
  hcmd : t.hcmd = s.hcmd
  outCursor : t.outCursor = s.outCursor
  outCount : t.outCount = s.outCount
  inCursor : t.inCursor = s.inCursor
  inCount : t.inCount = s.inCount
  rxAddr : t.rxAddr = s.rxAddr
  rxLen : t.rxLen = s.rxLen
  txAddr : t.txAddr = s.txAddr
  txLen : t.txLen = s.txLen
  rxTrigEn : t.rxTrigEn = s.rxTrigEn
  txTrigEn : t.txTrigEn = s.txTrigEn
  epoch : t.epoch = s.epoch
  cmd : t.cmd = s.cmd
  cmdFrame : t.cmdFrame = s.cmdFrame
  respSize : t.respSize = s.respSize
  respFrame : t.respFrame = s.respFrame
  during : t.during = s.during
  sched : t.sched = s.sched
  result : t.report.result = s.report.result

theorem State.EnvKeeps.refl (s : State) : s.EnvKeeps s := by constructor <;> rfl

theorem State.EnvKeeps.trans {s t u : State} (h₁ : s.EnvKeeps t) (h₂ : t.EnvKeeps u) : s.EnvKeeps u where
  cfg := h₂.cfg.trans h₁.cfg
  inited := h₂.inited.trans h₁.inited
  lock := h₂.lock.trans h₁.lock
  hseq := h₂.hseq.trans h₁.hseq
  hcmd := h₂.hcmd.trans h₁.hcmd
  outCursor := h₂.outCursor.trans h₁.outCursor
  outCount := h₂.outCount.trans h₁.outCount
  inCursor := h₂.inCursor.trans h₁.inCursor
  inCount := h₂.inCount.trans h₁.inCount
  rxAddr := h₂.rxAddr.trans h₁.rxAddr
  rxLen := h₂.rxLen.trans h₁.rxLen
  txAddr := h₂.txAddr.trans h₁.txAddr
  txLen := h₂.txLen.trans h₁.txLen
  rxTrigEn := h₂.rxTrigEn.trans h₁.rxTrigEn
  txTrigEn := h₂.txTrigEn.trans h₁.txTrigEn
  epoch := h₂.epoch.trans h₁.epoch
  cmd := h₂.cmd.trans h₁.cmd
  cmdFrame := h₂.cmdFrame.trans h₁.cmdFrame
  respSize := h₂.respSize.trans h₁.respSize
  respFrame := h₂.respFrame.trans h₁.respFrame
  during := h₂.during.trans h₁.during
  sched := h₂.sched.trans h₁.sched
  result := h₂.result.trans h₁.result

/-- Registers other than the detector's keep their values. -/
theorem State.EnvKeeps.reg {s t : State} (h : s.EnvKeeps t) (r : Reg)
    (hr : r ≠ .linkPhase ∧ r ≠ .pendA ∧ r ≠ .pendD ∧ r ≠ .syncFault) : t.reg r = s.reg r := by
  obtain ⟨h₁, h₂, h₃, h₄⟩ := hr
  cases r <;> first
    | contradiction
    | simp [State.reg, h.inited, h.lock, h.hseq, h.hcmd, h.outCursor, h.outCount, h.inCursor, h.inCount,
        h.rxAddr, h.rxLen, h.txAddr, h.txLen, h.rxTrigEn, h.txTrigEn]

theorem State.envKeeps_detect (s : State) : s.EnvKeeps s.detect := by
  rw [State.detect_eq]; constructor <;> rfl

theorem State.envKeeps_masterSel (v : Bool) (s : State) : s.EnvKeeps (s.masterSel v) :=
  State.EnvKeeps.trans (by constructor <;> rfl) (State.envKeeps_detect _)

theorem State.envKeeps_masterXchg (m : Byte) (s : State) : s.EnvKeeps (s.masterXchg m) := by
  unfold State.masterXchg; split <;> constructor <;> rfl

theorem State.envKeeps_storeByte {s t : State} {a : Nat} {b : Byte} (h : s.storeByte a b = .ok t) :
    s.EnvKeeps t := by
  rw [(State.storeByte_ok h).1]; constructor <;> rfl

theorem State.envKeeps_engineTx {s t : State} (h : s.engineTx = .ok t) : s.EnvKeeps t := by
  unfold State.engineTx at h
  split at h
  · split at h
    · cases h
    · cases h; constructor <;> rfl
  · cases h; exact .refl s

theorem State.envKeeps_engineRx {s t : State} (h : s.engineRx = .ok t) : s.EnvKeeps t := by
  unfold State.engineRx at h
  split at h
  · split at h
    · cases h; exact .refl s
    · split at h
      · cases h
      · rename_i hs
        cases h
        exact (State.envKeeps_storeByte hs).trans (by constructor <;> rfl)
  · cases h; exact .refl s

/-- What any one step of an agent outside the block leaves alone. -/
theorem envStep_keeps {e : EnvStep} {s t : State} (h : envStep e s = .ok t) : s.EnvKeeps t := by
  cases e with
  | sel v => cases h; exact State.envKeeps_masterSel v _
  | pin l => cases h; exact State.envKeeps_masterSel _ _
  | xchg m => cases h; exact State.envKeeps_masterXchg m _
  | txByte => exact State.envKeeps_engineTx h
  | rxByte => exact State.envKeeps_engineRx h

theorem envSteps_keeps {es : List EnvStep} {s t : State} (h : envSteps es s = .ok t) : s.EnvKeeps t := by
  induction es generalizing s with
  | nil => cases h; exact .refl _
  | cons e es ih =>
    simp only [envSteps] at h
    split at h
    · cases h
    · rename_i he
      exact (envStep_keeps he).trans (ih h)

theorem copyIn_keeps {a : Nat} {f : Frame} {d : List (List EnvStep)} {s t : State}
    (h : copyIn a f d s = .ok t) : s.EnvKeeps t := by
  induction f generalizing a d s with
  | nil => exact envSteps_keeps h
  | cons b f ih =>
    simp only [copyIn] at h
    split at h
    · cases h
    · rename_i h₁
      split at h
      · cases h
      · rename_i h₂
        exact ((envSteps_keeps h₁).trans (State.envKeeps_storeByte h₂)).trans (ih h)

theorem copyOut_keeps {a n : Nat} {d : List (List EnvStep)} {s t : State} {f : Frame}
    (h : copyOut a n d s = .ok (t, f)) : s.EnvKeeps t ∧ f.length = n := by
  induction n generalizing a d s t f with
  | zero =>
    simp only [copyOut] at h
    split at h
    · cases h
    · rename_i h₁; cases h; exact ⟨envSteps_keeps h₁, rfl⟩
  | succ n ih =>
    simp only [copyOut] at h
    split at h
    · cases h
    · rename_i h₁
      split at h
      · cases h
      · split at h
        · cases h
        · rename_i h₃
          cases h
          exact ⟨(envSteps_keeps h₁).trans (ih h₃).1, by simp [(ih h₃).2]⟩

/-- The bytes of a frame laid down one after another from an address. -/
def Memory.writeBytes (m : Memory) (a : Nat) : List Byte → Memory
  | [] => m
  | b :: f => Memory.writeBytes (Memory.write m a b) (a + 1) f

/-- A copy with nothing inside it: it lays the bytes down and changes nothing else. -/
theorem copyIn_alone {a : Nat} {f : Frame} {s : State}
    (h₁ : ∀ k, k < f.length → a + k < 2 ^ s.cfg.addrW)
    (h₂ : ∀ k, k < f.length → s.cfg.inZero (a + k) = false) :
    copyIn a f [] s = .ok { s with mem := Memory.writeBytes s.mem a f } := by
  induction f generalizing a s with
  | nil => rfl
  | cons b f ih =>
    simp only [copyIn, List.headD_nil, List.tail_nil, envSteps]
    have hb : s.storeByte a b = .ok { s with mem := Memory.write s.mem a b } :=
      State.storeByte_of_lt (by simpa using h₁ 0 (by simp)) (by simpa using h₂ 0 (by simp))
    simp only [hb]
    rw [ih (s := { s with mem := Memory.write s.mem a b })]
    · rfl
    · intro k hk
      have := h₁ (k + 1) (by simpa using hk)
      show a + 1 + k < 2 ^ s.cfg.addrW
      omega
    · intro k hk
      have := h₂ (k + 1) (by simpa using hk)
      show s.cfg.inZero (a + 1 + k) = false
      rwa [show a + 1 + k = a + (k + 1) by omega]

/-- A copy out with nothing inside it: the bytes as they stand, and no change. -/
theorem copyOut_alone {a n : Nat} {s : State} (h : ∀ k, k < n → a + k < 2 ^ s.cfg.addrW) :
    copyOut a n [] s = .ok (s, s.readBytes a n) := by
  induction n generalizing a with
  | zero => rfl
  | succ n ih =>
    have hb : s.loadByte a = .ok (s.readByte a) :=
      State.loadByte_of_lt (by simpa using h 0 (by omega))
    simp only [copyOut, List.headD_nil, List.tail_nil, envSteps, hb, State.readBytes]
    rw [ih (fun k hk => by have := h (k + 1) (by omega); omega)]

theorem Memory.lookup_writeBytes_other {m : Memory} {a x : Nat} {f : Frame}
    (h : x < a ∨ a + f.length ≤ x) :
    Memory.lookup (Memory.writeBytes m a f) x = Memory.lookup m x := by
  induction f generalizing a m with
  | nil => rfl
  | cons b f ih =>
    simp only [List.length_cons] at h
    rw [Memory.writeBytes, ih (by omega), Memory.lookup_write_other _ _ (by omega)]

theorem Memory.lookup_writeBytes_same {m : Memory} {a k : Nat} {f : Frame} (h : k < f.length) :
    Memory.lookup (Memory.writeBytes m a f) (a + k) = some f[k] := by
  induction f generalizing a m k with
  | nil => simp at h
  | cons b f ih =>
    cases k with
    | zero =>
      rw [Memory.writeBytes, Memory.lookup_writeBytes_other (by omega)]
      simpa using Memory.lookup_write_same m a b
    | succ k =>
      rw [Memory.writeBytes, show a + (k + 1) = a + 1 + k by omega, ih (by simpa using h)]
      rfl

/-- A frame copy keeps the canonical form. -/
theorem Memory.writeBytes_wf {m : Memory} (a : Nat) (f : Frame) (h : Memory.wf m) :
    Memory.wf (Memory.writeBytes m a f) := by
  induction f generalizing a m with
  | nil => exact h
  | cons b f ih => exact ih (a + 1) (Memory.write_wf a b h)

theorem Memory.mem_writeBytes {m : Memory} {a : Nat} {f : Frame} {c : Host.Cell}
    (h : c ∈ Memory.writeBytes m a f) : (a ≤ c.1 ∧ c.1 < a + f.length) ∨ c ∈ m := by
  induction f generalizing a m with
  | nil => exact .inr h
  | cons b f ih =>
    simp only [List.length_cons]
    rcases ih h with h | h
    · exact .inl (by omega)
    · rcases Memory.mem_write h with h | h
      · exact .inl (by omega)
      · exact .inr h

/-- Every step outside the block keeps the canonical form of memory. -/
theorem envStep_memory_wf {e : EnvStep} {s t : State} (h : envStep e s = .ok t) (hw : Memory.wf s.mem) :
    Memory.wf t.mem := by
  cases e with
  | sel v => cases h; rw [State.masterSel, State.detect_eq]; exact hw
  | pin l => cases h; rw [State.masterSel, State.detect_eq]; exact hw
  | xchg m => cases h; unfold State.masterXchg; split <;> exact hw
  | txByte =>
    change s.engineTx = .ok t at h
    unfold State.engineTx at h
    split at h
    · split at h
      · cases h
      · cases h; exact hw
    · cases h; exact hw
  | rxByte =>
    change s.engineRx = .ok t at h
    unfold State.engineRx at h
    split at h
    · split at h
      · cases h; exact hw
      · split at h
        · cases h
        · rename_i hs
          cases h
          have := (State.storeByte_ok hs).1
          rw [this]
          exact Memory.write_wf _ _ hw
    · cases h; exact hw

theorem envSteps_memory_wf {es : List EnvStep} {s t : State} (h : envSteps es s = .ok t)
    (hw : Memory.wf s.mem) : Memory.wf t.mem := by
  induction es generalizing s with
  | nil => cases h; exact hw
  | cons e es ih =>
    simp only [envSteps] at h
    split at h
    · cases h
    · rename_i he
      exact ih h (envStep_memory_wf he hw)

/-- A frame copy keeps the canonical form of memory, whatever happens inside it. -/
theorem copyIn_memory_wf {a : Nat} {f : Frame} {d : List (List EnvStep)} {s t : State}
    (h : copyIn a f d s = .ok t) (hw : Memory.wf s.mem) : Memory.wf t.mem := by
  induction f generalizing a d s with
  | nil => exact envSteps_memory_wf h hw
  | cons b f ih =>
    simp only [copyIn] at h
    split at h
    · cases h
    · rename_i h₁
      split at h
      · cases h
      · rename_i h₂
        refine ih h ?_
        rw [(State.storeByte_ok h₂).1]
        exact Memory.write_wf _ _ (envSteps_memory_wf h₁ hw)

theorem copyOut_memory_wf {a n : Nat} {d : List (List EnvStep)} {s t : State} {f : Frame}
    (h : copyOut a n d s = .ok (t, f)) (hw : Memory.wf s.mem) : Memory.wf t.mem := by
  induction n generalizing a d s t f with
  | zero =>
    simp only [copyOut] at h
    split at h
    · cases h
    · rename_i h₁; cases h; exact envSteps_memory_wf h₁ hw
  | succ n ih =>
    simp only [copyOut] at h
    split at h
    · cases h
    · rename_i h₁
      split at h
      · cases h
      · split at h
        · cases h
        · rename_i h₃
          cases h
          exact ih h₃ (envSteps_memory_wf h₁ hw)

/-- Memory after reset is canonical. -/
theorem State.reset_memory_wf : Memory.wf State.reset.mem := List.Pairwise.nil

end Sys2Proof.Machine
end

