-- ==== Sys2Proof/Laws/Meanings.lean ====
section
/-! SUPPORT. When each operation runs: under its guard, what `exec` answers, in terms of the shared operations; and
the step as its turn. Proofs cite these instead of unfolding `exec` and `step`. -/

namespace Sys2Proof.Machine

theorem exec_init_of {s : State} (h₁ : s.inited = false) (h₂ : s.hseq = .idle) :
    exec .init s = .next s.initialised := by
  simp [exec, execInit, h₁, h₂]

theorem exec_submit_acquire {s : State} (h₁ : s.hseq = .idle) (h₂ : s.inited = true)
    (h₃ : s.lock = false) :
    exec .submit s = .next (State.hostAcquire { op := .submit, frame := s.portOperand } s) := by
  simp [exec, execSubmit, h₁, h₂, h₃]

theorem exec_submit_body {s : State} (h₁ : s.hseq = .held) (h₂ : s.hcmd.op = .submit)
    (h₃ : s.lock = true) : exec .submit s = finish s.submitBody := by
  simp [exec, execSubmit, h₁, h₂, h₃]

theorem exec_receive_acquire {s : State} (h₁ : s.hseq = .idle) (h₂ : s.inited = true)
    (h₃ : s.lock = false) :
    exec .receive s = .next (State.hostAcquire { s.hcmd with op := .receive } s) := by
  simp [exec, execReceive, h₁, h₂, h₃]

theorem exec_receive_body {s : State} (h₁ : s.hseq = .held) (h₂ : s.hcmd.op = .receive)
    (h₃ : s.lock = true) : exec .receive s = finish s.receiveBody := by
  simp [exec, execReceive, h₁, h₂, h₃]

theorem exec_selAssert_of {s : State} (h : s.serviceChoice = some .asserted) :
    exec .selAssert s = .next (State.takeEvent .asserted s).handleAssert := by
  simp [exec, execSelAssert, h, State.returnFromEvent]

theorem exec_selDeassert_of {s : State} (h : s.serviceChoice = some .deasserted) :
    exec .selDeassert s = .next (State.takeEvent .deasserted s).handleDeassert := by
  simp [exec, execSelDeassert, h, State.returnFromEvent]

theorem exec_rearm_of {s : State} (h₁ : s.lock = false) (h₂ : s.inited = true) :
    exec .rearm s = .next s.rearm := by
  simp [exec, execRearm, h₁, h₂]

theorem exec_enqueue_of {s : State} (h : s.lock = true) :
    exec .enqueue s = match s.enqueue s.hcmd.frame with
      | .error r => .fault r
      | .ok (s', ok) => .next (State.withResult (.ok ok) s') := by
  unfold exec execEnqueue; exact if_pos h

theorem exec_dequeue_of {s : State} (h : s.lock = true) :
    exec .dequeue s = match s.dequeue with
      | .error r => .fault r
      | .ok (s', f) => .next (State.withResult (.frame f) s') := by
  unfold exec execDequeue; exact if_pos h

/-- When the outbound ring is full the frame is dropped (R111 (a)). -/
theorem State.enqueue_full {s : State} (f : Frame) (h : s.outCount = s.cfg.capacity) :
    s.enqueue f = .ok (State.raise .outboundOverflow { s with during := [] }, false) := by
  unfold State.enqueue; rw [if_pos h]

/-- Otherwise the frame is copied and counted (R111). -/
theorem State.enqueue_room {s : State} (f : Frame) (h : s.outCount ≠ s.cfg.capacity) :
    s.enqueue f =
      match copyIn (slotAddr s.cfg s.cfg.outBase s.enqueueSlot) f s.during { s with during := [] } with
      | .error r => .error r
      | .ok s' => .ok ({ s' with outCount := s'.outCount + 1 }, true) := by
  unfold State.enqueue; exact if_neg h

/-- When the inbound ring is empty there is no frame (R112 (a)). -/
theorem State.dequeue_empty {s : State} (h : s.inCount = 0) :
    s.dequeue = .ok (State.raise .inboundUnderflow { s with during := [] }, none) := by
  unfold State.dequeue; rw [if_pos h]

/-- Otherwise the oldest frame is copied out and no longer counted (R112). -/
theorem State.dequeue_some {s : State} (h : s.inCount ≠ 0) :
    s.dequeue =
      match copyOut (slotAddr s.cfg s.cfg.inBase s.dequeueSlot) s.cfg.frameSize s.during
          { s with during := [] } with
      | .error r => .error r
      | .ok (s', f) => .ok ({ s' with inCount := s'.inCount - 1 }, some f) := by
  unfold State.dequeue; exact if_neg h

/-- All that `ENQUEUE` can do. -/
theorem State.enqueue_ok {s t : State} {f : Frame} {ok : Bool} (h : s.enqueue f = .ok (t, ok)) :
    (s.outCount = s.cfg.capacity ∧ ok = false ∧
      t = State.raise .outboundOverflow { s with during := [] }) ∨
    (s.outCount ≠ s.cfg.capacity ∧ ok = true ∧ ∃ u,
      copyIn (slotAddr s.cfg s.cfg.outBase s.enqueueSlot) f s.during { s with during := [] } = .ok u ∧
      State.EnvKeeps { s with during := [] } u ∧ t = { u with outCount := s.outCount + 1 }) := by
  by_cases hc : s.outCount = s.cfg.capacity
  · rw [State.enqueue_full f hc] at h
    cases h; exact .inl ⟨hc, rfl, rfl⟩
  · rw [State.enqueue_room f hc] at h
    split at h
    · cases h
    · rename_i u hu
      have hk := copyIn_keeps hu
      have ho : u.outCount = s.outCount := hk.outCount
      cases h
      exact .inr ⟨hc, rfl, u, hu, hk, by rw [ho]⟩

/-- All that `DEQUEUE` can do. -/
theorem State.dequeue_ok {s t : State} {r : Option Frame} (h : s.dequeue = .ok (t, r)) :
    (s.inCount = 0 ∧ r = none ∧ t = State.raise .inboundUnderflow { s with during := [] }) ∨
    (s.inCount ≠ 0 ∧ ∃ u f,
      copyOut (slotAddr s.cfg s.cfg.inBase s.dequeueSlot) s.cfg.frameSize s.during
        { s with during := [] } = .ok (u, f) ∧
      State.EnvKeeps { s with during := [] } u ∧ r = some f ∧ f.length = s.cfg.frameSize ∧
      t = { u with inCount := s.inCount - 1 }) := by
  by_cases hc : s.inCount = 0
  · rw [State.dequeue_empty hc] at h
    cases h; exact .inl ⟨hc, rfl, rfl⟩
  · rw [State.dequeue_some hc] at h
    split at h
    · cases h
    · rename_i u f hu
      obtain ⟨hk, hl⟩ := copyOut_keeps hu
      have hi : u.inCount = s.inCount := hk.inCount
      cases h
      exact .inr ⟨hc, u, f, hu, hk, rfl, hl, by rw [hi]⟩

/-- A step takes the next turn of the schedule. -/
theorem step_turn {s : State} {t : Turn} {rest : List Turn} (h : s.sched = t :: rest) :
    step s = runTurn t (s.begin rest) := by
  simp only [step, takeStep, h]

/-- With no turn left the block goes on by itself. -/
theorem step_idle {s : State} (h : s.sched = []) : step s = idleTurn (s.begin []) := by
  simp only [step, takeStep, h]

/-- A frame sampled from the port has as many bytes as the port has. -/
@[simp] theorem length_portFrame (n v : Nat) : (portFrame n v).length = n := by simp [portFrame]

end Sys2Proof.Machine
end

