-- ==== Sys2Proof/Laws/Addresses.lean ====
section
/-! SUPPORT. Where the addresses of a legal instance lie (`20_memory.md` R61, R62), and what a frame copy with nothing
inside it leaves in memory. -/

namespace Sys2Proof.Machine

/-- What a legal instance satisfies, as plain inequalities. -/
theorem Config.wf_bounds {c : Config} (h : c.wf = true) :
    1 ≤ c.frameSize ∧ 1 ≤ c.capacity ∧ 1 ≤ c.rxqDepth ∧ 1 ≤ c.txqDepth ∧
    c.outBase + c.ringBytes ≤ 2 ^ c.addrW ∧ c.inBase + c.ringBytes ≤ 2 ^ c.addrW ∧
    c.zeroBase + c.frameSize ≤ 2 ^ c.addrW ∧
    (c.outBase + c.ringBytes ≤ c.inBase ∨ c.inBase + c.ringBytes ≤ c.outBase) ∧
    (c.outBase + c.ringBytes ≤ c.zeroBase ∨ c.zeroBase + c.frameSize ≤ c.outBase) ∧
    (c.inBase + c.ringBytes ≤ c.zeroBase ∨ c.zeroBase + c.frameSize ≤ c.inBase) := by
  simp only [Config.wf, Config.sizesOk, Config.depthsOk, Config.regionsFit, Config.regionsDisjoint,
    regionsApart, Bool.and_eq_true, decide_eq_true_eq] at h
  tauto

/-- Byte `k` of slot `i` lies inside the ring's storage. -/
theorem slot_offset_lt {c : Config} {i k : Nat} (hi : i < c.capacity) (hk : k < c.frameSize) :
    i * c.frameSize + k < c.ringBytes := by
  have : (i + 1) * c.frameSize ≤ c.capacity * c.frameSize := Nat.mul_le_mul_right _ hi
  rw [Nat.add_mul] at this
  unfold Config.ringBytes; omega

/-- Bytes of different slots of one ring have different offsets. -/
theorem slot_offset_ne {c : Config} {i j k l : Nat} (h : i ≠ j) (hk : k < c.frameSize)
    (hl : l < c.frameSize) : i * c.frameSize + k ≠ j * c.frameSize + l := by
  intro e
  rcases Nat.lt_or_gt_of_ne h with h | h
  · have := Nat.mul_le_mul_right c.frameSize h
    rw [Nat.succ_mul] at this; omega
  · have := Nat.mul_le_mul_right c.frameSize h
    rw [Nat.succ_mul] at this; omega

theorem inOut_exists {c : Config} (h : c.wf = true) {a : Nat} (ha : c.inOut a = true) :
    a < 2 ^ c.addrW ∧ c.inZero a = false := by
  obtain ⟨_, _, _, _, _, _, _, _, _, _⟩ := Config.wf_bounds h
  simp only [Config.inOut, Config.inZero, decide_eq_true_eq, decide_eq_false_iff_not] at *
  omega

theorem inIn_exists {c : Config} (h : c.wf = true) {a : Nat} (ha : c.inIn a = true) :
    a < 2 ^ c.addrW ∧ c.inZero a = false := by
  obtain ⟨_, _, _, _, _, _, _, _, _, _⟩ := Config.wf_bounds h
  simp only [Config.inIn, Config.inZero, decide_eq_true_eq, decide_eq_false_iff_not] at *
  omega

theorem outSlot_inOut {c : Config} {i k : Nat} (hi : i < c.capacity) (hk : k < c.frameSize) :
    c.inOut (slotAddr c c.outBase i + k) = true := by
  have := slot_offset_lt hi hk
  unfold Config.inOut slotAddr; exact decide_eq_true ⟨by omega, by omega⟩

theorem inSlot_inIn {c : Config} {i k : Nat} (hi : i < c.capacity) (hk : k < c.frameSize) :
    c.inIn (slotAddr c c.inBase i + k) = true := by
  have := slot_offset_lt hi hk
  unfold Config.inIn slotAddr; exact decide_eq_true ⟨by omega, by omega⟩

/-- A frame laid down outside `ZERO` reads back. -/
theorem State.readBytes_writeBytes {s : State} {a : Nat} {f : Frame}
    (hz : ∀ k, k < f.length → s.cfg.inZero (a + k) = false) :
    State.readBytes { s with mem := Memory.writeBytes s.mem a f } a f.length = f := by
  apply List.ext_getElem
  · simp
  · intro k h₁ h₂
    rw [State.getElem_readBytes _ _ _ _ h₂]
    simp [State.readByte, hz k h₂, Memory.lookup_writeBytes_same h₂]

/-- Every other address reads as before. -/
theorem State.readByte_writeBytes_other {s : State} {a x : Nat} {f : Frame}
    (h : x < a ∨ a + f.length ≤ x) :
    State.readByte { s with mem := Memory.writeBytes s.mem a f } x = s.readByte x := by
  simp [State.readByte, State.unlisted, Memory.lookup_writeBytes_other h]

/-- `ENQUEUE` into a ring with room, with nothing inside its copy (R111). -/
theorem State.enqueue_alone {s : State} {f : Frame} (h : s.cfg.wf = true)
    (hf : f.length = s.cfg.frameSize) (hd : s.during = []) (hc : s.outCount ≠ s.cfg.capacity) :
    s.enqueue f = .ok ({ s with
      mem := Memory.writeBytes s.mem (slotAddr s.cfg s.cfg.outBase s.enqueueSlot) f
      outCount := s.outCount + 1 }, true) := by
  have hs : { s with during := [] } = s := by cases s; simp_all
  have ha : ∀ k, k < f.length →
      s.cfg.inOut (slotAddr s.cfg s.cfg.outBase s.enqueueSlot + k) = true :=
    fun k hk => outSlot_inOut (Nat.mod_lt _ (Config.wf_bounds h).2.1) (hf ▸ hk)
  have hcopy : ∀ d, d = [] → copyIn (slotAddr s.cfg s.cfg.outBase s.enqueueSlot) f d s =
      .ok { s with mem := Memory.writeBytes s.mem (slotAddr s.cfg s.cfg.outBase s.enqueueSlot) f } := by
    rintro _ rfl
    exact copyIn_alone (fun k hk => (inOut_exists h (ha k hk)).1)
      (fun k hk => (inOut_exists h (ha k hk)).2)
  rw [State.enqueue_room f hc, hs, hcopy _ hd]

/-- `DEQUEUE` from a ring that holds a frame, with nothing inside its copy (R112). -/
theorem State.dequeue_alone {s : State} (h : s.cfg.wf = true) (hd : s.during = [])
    (hc : s.inCount ≠ 0) :
    s.dequeue = .ok ({ s with inCount := s.inCount - 1 },
      some (s.readBytes (slotAddr s.cfg s.cfg.inBase s.dequeueSlot) s.cfg.frameSize)) := by
  have hs : { s with during := [] } = s := by cases s; simp_all
  have hcopy : ∀ d, d = [] → copyOut (slotAddr s.cfg s.cfg.inBase s.dequeueSlot) s.cfg.frameSize d s =
      .ok (s, s.readBytes (slotAddr s.cfg s.cfg.inBase s.dequeueSlot) s.cfg.frameSize) := by
    rintro _ rfl
    exact copyOut_alone fun k hk =>
      (inIn_exists h (inSlot_inIn (Nat.mod_lt _ (Config.wf_bounds h).2.1) hk)).1
  rw [State.dequeue_some hc, hs, hcopy _ hd]

end Sys2Proof.Machine
end

