-- ==== Sys2Proof/Laws/PerInstr.lean ====
section
/-! SUPPORT. Statements for all operations, one lemma per constructor. -/

namespace Sys2Proof.Laws.WordLayout

open Sys2Proof

/-- The class number of a format (`30_encoding.md` R92). -/
def classOf : Format → Nat
  | .host => 0
  | .event => 1
  | .micro => 2

/-- R91, R92: the word of an operation holds the number of its format in bits 7:6, and its `arg` field is zero
unless it is a `SET_TRIG` word. -/
def Statement (i : Instr) : Prop :=
  opClass (encode i) = classOf i.format ∧ (usesArg i = false → opArg (encode i) = 0)

theorem init : Statement .init := ⟨by decide, by decide⟩
theorem submit : Statement .submit := ⟨by decide, by decide⟩
theorem receive : Statement .receive := ⟨by decide, by decide⟩
theorem selAssert : Statement .selAssert := ⟨by decide, by decide⟩
theorem selDeassert : Statement .selDeassert := ⟨by decide, by decide⟩
theorem xdAcquire : Statement .xdAcquire := ⟨by decide, by decide⟩
theorem xdRelease : Statement .xdRelease := ⟨by decide, by decide⟩
theorem enqueue : Statement .enqueue := ⟨by decide, by decide⟩
theorem dequeue : Statement .dequeue := ⟨by decide, by decide⟩
theorem tryReserveOut : Statement .tryReserveOut := ⟨by decide, by decide⟩
theorem advanceIn : Statement .advanceIn := ⟨by decide, by decide⟩
theorem rearm : Statement .rearm := ⟨by decide, by decide⟩
theorem haltEngine : Statement .haltEngine := ⟨by decide, by decide⟩
theorem drainRxq : Statement .drainRxq := ⟨by decide, by decide⟩
theorem setTrig (t r : Bool) : Statement (.setTrig t r) := by
  cases t <;> cases r <;> exact ⟨by decide, by decide⟩

end Sys2Proof.Laws.WordLayout
end

