-- ==== Sys2Proof/Laws/Premises.lean ====
section
/-! SUPPORT. The premises of `Safety.lean` over the steps of one turn: they do not depend on the bytes a frame copy
moves, so what a premise keeps true of each single step it keeps true of a whole frame copy. -/

namespace Sys2Proof.Machine

/-- `v` differs from `u` at most in bytes (of memory, of `TXQ`, as many, and of the master's log) and in the
fields of the model's own that no step of another agent reads. -/
def State.SameControl (u v : State) : Prop :=
  ∃ m q l d c r, v = { u with mem := m, txq := q, masterLog := l, during := d, sched := c, report := r } ∧
    q.length = u.txq.length

theorem State.SameControl.refl (s : State) : s.SameControl s := ⟨_, _, _, _, _, _, rfl, rfl⟩

theorem State.SameControl.mem (s : State) (m : Memory) : s.SameControl { s with mem := m } :=
  ⟨m, _, _, _, _, _, rfl, rfl⟩

/-- The start of a step and the start of a copy are no different for the other agents. -/
theorem State.SameControl.begin (s : State) (c : List Turn) (d : List (List EnvStep)) :
    s.SameControl { s.begin c with during := d } :=
  ⟨_, _, _, d, c, _, rfl, rfl⟩

/-- A store is the same step for both, up to bytes. -/
theorem State.SameControl.storeByte {u v : State} (h : u.SameControl v) (a : Nat) (b : Byte) :
    (∃ r, u.storeByte a b = .error r ∧ v.storeByte a b = .error r) ∨
    (∃ u' v', u.storeByte a b = .ok u' ∧ v.storeByte a b = .ok v' ∧ u'.SameControl v') := by
  obtain ⟨m, q, l, d, c, r, rfl, hq⟩ := h
  simp only [State.storeByte]
  split
  · exact .inl ⟨_, rfl, rfl⟩
  · split
    · exact .inl ⟨_, rfl, rfl⟩
    · exact .inr ⟨_, _, rfl, rfl, _, q, l, d, c, r, rfl, hq⟩

/-- The line changes, and is detected, alike for both. -/
theorem State.SameControl.masterSel {u v : State} (h : u.SameControl v) (b : Bool) :
    (u.masterSel b).SameControl (v.masterSel b) := by
  obtain ⟨m, q, l, d, c, r, hv, hq⟩ := h
  refine ⟨m, q, l, d, c, (v.masterSel b).report, ?_, ?_⟩ <;> subst hv <;>
    simp only [State.masterSel, State.detect_eq]
  · rfl
  · exact hq

/-- The master exchanges a byte with both or with neither. -/
theorem State.SameControl.masterXchg {u v : State} (h : u.SameControl v) (b : Byte) :
    (u.masterXchg b).SameControl (v.masterXchg b) := by
  have hst := h
  obtain ⟨m, q, l, d, c, r, hv, hq⟩ := h
  have he : q.isEmpty = u.txq.isEmpty := by
    rw [Bool.eq_iff_iff, List.isEmpty_iff_length_eq_zero, List.isEmpty_iff_length_eq_zero, hq]
  have hs : v.sel = u.sel := by rw [hv]
  by_cases hu : u.sel = true
  · refine ⟨m, q.tail, l ++ [v.outByte], d, c, r, ?_, ?_⟩
    · simp only [State.masterXchg, hs, hu, if_true]
      subst hv
      simp only [State.txqEmpty, he]; rfl
    · simp [State.masterXchg, hu, hq]
  · simpa [State.masterXchg, hs, hu] using hst

theorem State.SameControl.txReady {u v : State} (h : u.SameControl v) : v.txReady = u.txReady := by
  obtain ⟨m, q, l, d, c, r, rfl, hq⟩ := h
  simp [State.txReady, hq]

/-- One step of an agent outside the block is enabled, stops and goes on alike for both. -/
theorem State.SameControl.envStep {u v : State} (h : u.SameControl v) (e : EnvStep) :
    (∃ r, Machine.envStep e u = .error r ∧ Machine.envStep e v = .error r) ∨
    (∃ u' v', Machine.envStep e u = .ok u' ∧ Machine.envStep e v = .ok v' ∧ u'.SameControl v') := by
  have hr := h.txReady
  have hst := h
  obtain ⟨m, q, l, d, c, r, rfl, hq⟩ := h
  cases e with
  | sel b => exact .inr ⟨_, _, rfl, rfl, hst.masterSel _⟩
  | pin b => exact .inr ⟨_, _, rfl, rfl, hst.masterSel _⟩
  | xchg b => exact .inr ⟨_, _, rfl, rfl, hst.masterXchg b⟩
  | txByte =>
    simp only [Machine.envStep, State.engineTx, hr]
    split
    · simp only [State.loadByte]
      by_cases hc : u.txAddr + (u.txLen - u.txRemain) < 2 ^ u.cfg.addrW <;> simp only [hc, if_true, if_false]
      · refine .inr ⟨_, _, rfl, rfl, m, _, l, d, c, r, rfl, ?_⟩
        simp [hq]
      · exact .inl ⟨_, rfl, rfl⟩
    · exact .inr ⟨_, _, rfl, rfl, hst⟩
  | rxByte =>
    simp only [Machine.envStep, State.engineRx]
    have hx : State.rxReady { u with
        mem := m, txq := q, masterLog := l, during := d, sched := c, report := r } = u.rxReady := rfl
    rw [hx]
    split
    · split
      · exact .inr ⟨_, _, rfl, rfl, hst⟩
      · rename_i b rest _
        rcases hst.storeByte (u.rxAddr + (u.rxLen - u.rxRemain)) b with
          ⟨x, h₁, h₂⟩ | ⟨u', v', h₁, h₂, m', q', l', d', c', r', rfl, hq'⟩
        · exact .inl ⟨x, by rw [h₁], by rw [h₂]⟩
        · simp only [h₁, h₂]
          exact .inr ⟨_, _, rfl, rfl, m', q', l', d', c', r', rfl, hq'⟩
    · exact .inr ⟨_, _, rfl, rfl, hst⟩

/-- What a premise over single steps asks of them: it reads no bytes. -/
def ReadsNoBytes (p : EnvStep → State → Bool) : Prop :=
  ∀ e (u v : State), u.SameControl v → p e v = p e u

theorem stepsRespect_congr {p : EnvStep → State → Bool} (hp : ReadsNoBytes p) (es : List EnvStep)
    {u v : State} (h : u.SameControl v) : stepsRespect p es v = stepsRespect p es u := by
  induction es generalizing u v with
  | nil => rfl
  | cons e es ih =>
    simp only [stepsRespect, hp e u v h]
    rcases h.envStep e with ⟨r, h₁, h₂⟩ | ⟨u', v', h₁, h₂, h'⟩
    · rw [h₁, h₂]
    · rw [h₁, h₂]; simp only [ih h']

/-- A run of steps is respected part by part. -/
theorem stepsRespect_append {p : EnvStep → State → Bool} {es fs : List EnvStep} {s t : State}
    (h : stepsRespect p (es ++ fs) s = true) (ht : envSteps es s = .ok t) :
    stepsRespect p es s = true ∧ stepsRespect p fs t = true := by
  induction es generalizing s with
  | nil => cases ht; exact ⟨rfl, h⟩
  | cons e es ih =>
    simp only [List.cons_append, stepsRespect, envSteps, Bool.and_eq_true] at h ht ⊢
    split at ht
    · cases ht
    · rename_i he
      simp only [he] at h ⊢
      exact ⟨⟨h.1, (ih h.2 ht).1⟩, (ih h.2 ht).2⟩

/-- `J` is kept by every single step the premise `p` allows, and by every store of a frame copy. -/
structure KeptUnder (p : EnvStep → State → Bool) (J : State → Prop) : Prop where
  reads : ReadsNoBytes p
  step : ∀ {e : EnvStep} {u v : State}, J u → p e u = true → envStep e u = .ok v → J v
  store : ∀ {u : State} (m : Memory), J u → J { u with mem := m }

theorem KeptUnder.envSteps {p : EnvStep → State → Bool} {J : State → Prop} (k : KeptUnder p J)
    {es : List EnvStep} {s t : State} (h : Machine.envSteps es s = .ok t)
    (hs : stepsRespect p es s = true) (hj : J s) : J t := by
  induction es generalizing s with
  | nil => cases h; exact hj
  | cons e es ih =>
    simp only [Machine.envSteps, stepsRespect, Bool.and_eq_true] at h hs
    split at h
    · cases h
    · rename_i he
      simp only [he] at hs
      exact ih h hs.2 (k.step hj hs.1 he)

/-- The steps inside a copy: those before the next byte, then the rest. -/
theorem flatten_headD_tail (d : List (List EnvStep)) : d.flatten = d.headD [] ++ d.tail.flatten := by
  cases d <;> rfl

/-- What a premise keeps over single steps it keeps over a frame copy into storage (R79). -/
theorem KeptUnder.copyIn {p : EnvStep → State → Bool} {J : State → Prop} (k : KeptUnder p J) {a : Nat}
    {f : Frame} {d : List (List EnvStep)} {s t : State} (h : Machine.copyIn a f d s = .ok t)
    (hs : stepsRespect p d.flatten s = true) (hj : J s) : J t := by
  induction f generalizing a d s with
  | nil => exact k.envSteps h hs hj
  | cons b f ih =>
    simp only [Machine.copyIn] at h
    split at h
    · cases h
    · rename_i h₁
      split at h
      · cases h
      · rename_i s₁ _ s₂ h₂
        rw [flatten_headD_tail] at hs
        obtain ⟨hs₁, hs₂⟩ := stepsRespect_append hs h₁
        have he := (State.storeByte_ok h₂).1
        subst he
        exact ih h ((stepsRespect_congr k.reads _ (.mem s₁ _)).trans hs₂)
          (k.store _ (k.envSteps h₁ hs₁ hj))

/-- The same for a frame copy out of storage. -/
theorem KeptUnder.copyOut {p : EnvStep → State → Bool} {J : State → Prop} (k : KeptUnder p J) {a n : Nat}
    {d : List (List EnvStep)} {s t : State} {f : Frame} (h : Machine.copyOut a n d s = .ok (t, f))
    (hs : stepsRespect p d.flatten s = true) (hj : J s) : J t := by
  induction n generalizing a d s t f with
  | zero =>
    simp only [Machine.copyOut] at h
    split at h
    · cases h
    · rename_i h₁; cases h; exact k.envSteps h₁ hs hj
  | succ n ih =>
    simp only [Machine.copyOut] at h
    split at h
    · cases h
    · rename_i h₁
      split at h
      · cases h
      · split at h
        · cases h
        · rename_i h₃
          cases h
          rw [flatten_headD_tail] at hs
          obtain ⟨hs₁, hs₂⟩ := stepsRespect_append hs h₁
          exact ih h₃ hs₂ (k.envSteps h₁ hs₁ hj)

/-- The three premises of `Safety.lean` read no bytes. -/
theorem noIdlePrefetch_readsNoBytes :
    ReadsNoBytes fun e u => !decide (e = .txByte) || u.sel || !u.txReady := by
  intro e u v h
  have hr := h.txReady
  obtain ⟨m, q, l, d, c, r, rfl, -⟩ := h
  simp only [hr]

theorem leavesLineDeasserted_readsNoBytes :
    ReadsNoBytes fun e u => !(e.asserts u.cfg && u.pendD) := by
  rintro e u _ ⟨m, q, l, d, c, r, rfl, -⟩; rfl

theorem masterWaited_readsNoBytes :
    ReadsNoBytes fun e u => !(e.isXchg && u.sel && u.pendD) := by
  rintro e u _ ⟨m, q, l, d, c, r, rfl, -⟩; rfl

end Sys2Proof.Machine
end

