-- ==== Sys2Proof/Tests/Slice0.lean ====
section
/-! SUPPORT. Tests of the model and witnesses for the statements. Expected values come from `spec/95_test_vectors.md`
(vector ids in the names) or are worked out by hand from the rules; words are written out bit by bit from
`30_encoding.md` R91 and R93. -/

namespace Sys2Proof.Tests

open Sys2Proof Sys2Proof.Machine

/-- The example parameters of `95_test_vectors.md`; `ADDR_W` 12 holds the three regions. -/
def exConfig : Config where
  frameSize := 4
  capacity := 4
  addrW := 12
  outBase := 0x000
  inBase := 0x100
  zeroBase := 0x200
  selActiveLevel := true
  rxqDepth := 8
  txqDepth := 8
  syncStages := 0

/-- The example instance after reset. -/
def afterReset : State := State.resetOf exConfig

/-- The example instance after `INIT` with the line deasserted (vector H1), written out. -/
def ready : State := { afterReset with
  inited := true
  rxAddr := 0x100
  rxLen := 4
  rxRemain := 4
  txAddr := 0x200
  txLen := 4
  txRemain := 4
  rxTrigEn := true
  txTrigEn := true }

/-- `ready` inside a host operation, with the frame 01 02 03 04 in `HCMD`. -/
def holding (op : HostOp) : State := { ready with
  lock := true
  hseq := .held
  hcmd := { op := op, frame := [1, 2, 3, 4] } }

/-- A property of the next state; false of a fault or a refusal. -/
def nextIs (r : Result) (p : State → Bool) : Bool :=
  match r with
  | .next s => p s
  | .fault _ => false
  | .refused _ => false

/-- Did it refuse for this reason? -/
def refusedWith (r : Result) (why : Refusal) : Bool :=
  match r with
  | .next _ => false
  | .fault _ => false
  | .refused x => decide (x = why)

/-- A property of the state after a step of an agent outside the block. -/
def okIs (r : Except Fault State) (p : State → Bool) : Bool :=
  match r with
  | .ok s => p s
  | .error _ => false

/-- The conditions of the last step. -/
def condsAre (s : State) (l : List Condition) : Bool := decide (s.report.conds = l)

/-! ## Decoding -/

theorem test_decode_init : decodeTableWord 8 0b00000100 = some .init := by decide
theorem test_decode_submit : decodeTableWord 8 0b00001000 = some .submit := by decide
theorem test_decode_receive : decodeTableWord 8 0b00001100 = some .receive := by decide
theorem test_decode_sel_assert : decodeTableWord 8 0b01000100 = some .selAssert := by decide
theorem test_decode_sel_deassert : decodeTableWord 8 0b01001000 = some .selDeassert := by decide
theorem test_decode_xd_acquire : decodeTableWord 8 0b10000000 = some .xdAcquire := by decide
theorem test_decode_xd_release : decodeTableWord 8 0b10000100 = some .xdRelease := by decide
theorem test_decode_enqueue : decodeTableWord 8 0b10001000 = some .enqueue := by decide
theorem test_decode_dequeue : decodeTableWord 8 0b10001100 = some .dequeue := by decide
theorem test_decode_try_reserve_out : decodeTableWord 8 0b10010000 = some .tryReserveOut := by decide
theorem test_decode_advance_in : decodeTableWord 8 0b10010100 = some .advanceIn := by decide
theorem test_decode_rearm : decodeTableWord 8 0b10011000 = some .rearm := by decide
theorem test_decode_halt_engine : decodeTableWord 8 0b10011100 = some .haltEngine := by decide
theorem test_decode_drain_rxq : decodeTableWord 8 0b10100000 = some .drainRxq := by decide
theorem test_decode_set_trig :
    decodeTableWord 8 0b10100100 = some (.setTrig false false) ∧
    decodeTableWord 8 0b10100101 = some (.setTrig false true) ∧
    decodeTableWord 8 0b10100110 = some (.setTrig true false) ∧
    decodeTableWord 8 0b10100111 = some (.setTrig true true) := by decide
/-- R96: one reserved word of each kind. -/
theorem test_decode_reserved_by_name :
    decode 0b11000000 = .error .reservedClass ∧ decode 0b00000000 = .error .reservedOp ∧
    decode 0b10101000 = .error .reservedOp ∧ decode 0b00000101 = .error .argNotZero ∧
    decode 0b10000001 = .error .argNotZero ∧ decodeBytes [] = .error .noWord := by decide

/-! ## Well-formedness -/

theorem test_wf_example : exConfig.wf = true := by decide
theorem test_wf_reference : Config.reference.wf = true := by decide
theorem test_ill_formed_no_frame_bytes :
    Config.sizesOk { exConfig with frameSize := 0 } = false := by decide
theorem test_ill_formed_no_slots :
    Config.sizesOk { exConfig with capacity := 0 } = false := by decide
theorem test_ill_formed_no_queue :
    Config.depthsOk { exConfig with rxqDepth := 0 } = false := by decide
theorem test_ill_formed_region_outside :
    Config.regionsFit { exConfig with zeroBase := 0xFFD } = false := by decide
theorem test_ill_formed_regions_overlap :
    Config.regionsDisjoint { exConfig with inBase := 0x00F } = false := by decide
/-- The widths of the reference instance (E8): 5, 6 and 8. -/
theorem test_reference_widths :
    Config.reference.idxW = 5 ∧ Config.reference.cntW = 6 ∧ Config.reference.lenW = 8 := by decide

/-! ## One step of each operation -/

theorem test_init_H1 : nextIs (exec .init afterReset) (fun t =>
    decide (t.rxAddr = 0x100 ∧ t.txAddr = 0x200 ∧ t.rxTrigEn = true ∧ t.txTrigEn = true ∧
      t.linkPhase = .idle ∧ t.inited = true ∧ t.rxRemain = 4 ∧ t.txRemain = 4)) = true := by decide
theorem test_init_H2_takes_level_without_event :
    nextIs (exec .init { afterReset with sel := true }) (fun t =>
      decide (t.linkPhase = .active ∧ t.pendA = false)) = true := by decide
theorem test_submit_acquire_samples_port :
    nextIs (exec .submit { ready with cmdFrame := 0x04030201 }) (fun t =>
      decide (t.hcmd = ⟨.submit, [1, 2, 3, 4]⟩ ∧ t.lock = true ∧ t.hseq = .held)) = true := by decide
theorem test_submit_H4_drops :
    nextIs (exec .submit { holding .submit with outCursor := 2, outCount := 4 }) (fun t =>
      condsAre t [.outboundOverflow] && decide (t.outCursor = 2 ∧ t.outCount = 4 ∧ t.mem = [] ∧
        t.lock = false ∧ t.hseq = .idle)) = true := by decide
theorem test_receive_H6_no_data :
    nextIs (exec .receive { holding .receive with inCursor := 2, respFrame := [9, 9, 9, 9] })
      (fun t => condsAre t [.inboundUnderflow] &&
        decide (t.respSize = 0 ∧ t.respFrame = [9, 9, 9, 9] ∧ t.lock = false)) = true := by decide
theorem test_sel_assert_defers_on_residue :
    nextIs (exec .selAssert { ready with pendA := true, linkPhase := .active, sel := true, txq := [7] })
      (fun t => condsAre t [.staleTxQueue] &&
        decide (t.rxTrigEn = true ∧ t.txTrigEn = false ∧ t.pendA = false ∧ t.txq = [7])) = true := by
  decide
theorem test_sel_assert_clean :
    nextIs (exec .selAssert { ready with
        pendA := true, linkPhase := .active, sel := true, txTrigEn := false }) (fun t =>
      condsAre t [] && decide (t.rxTrigEn = true ∧ t.txTrigEn = true)) = true := by decide
theorem test_sel_deassert_vector :
    nextIs (exec .selDeassert { ready with
        pendD := true, outCount := 1, txTrigEn := false, rxq := [0x7E], rxRemain := 1 }) (fun t =>
      decide (t.outCursor = 1 ∧ t.outCount = 0 ∧ t.inCursor = 1 ∧ t.inCount = 1 ∧ t.rxAddr = 0x104 ∧
        t.txAddr = 0x000 ∧ t.txTrigEn = true ∧ t.rxq = [] ∧ t.report.rxqPops = 1 ∧
        t.rxRemain = 4 ∧ t.txRemain = 4 ∧ t.pendD = false)) = true := by decide
theorem test_xd_acquire : nextIs (exec .xdAcquire ready) (fun t => t.lock) = true := by decide
theorem test_xd_release :
    nextIs (exec .xdRelease (holding .submit)) (fun t => decide (t.lock = false)) = true := by decide
theorem test_enqueue_Q4_wraps :
    nextIs (exec .enqueue { holding .submit with outCursor := 3, outCount := 2 }) (fun t =>
      decide (t.mem = [(4, 1), (5, 2), (6, 3), (7, 4)] ∧ t.outCursor = 3 ∧ t.outCount = 3 ∧
        t.report.result = .ok true)) = true := by decide
theorem test_enqueue_Q3_full :
    nextIs (exec .enqueue { holding .submit with outCursor := 2, outCount := 4 }) (fun t =>
      decide (t.mem = [] ∧ t.outCount = 4 ∧ t.report.result = .ok false)) = true := by decide
theorem test_dequeue_D4_negative_difference :
    nextIs (exec .dequeue { holding .receive with
        inCursor := 1, inCount := 3,
        mem := [(0x108, 5), (0x109, 6), (0x10A, 7), (0x10B, 8)] }) (fun t =>
      decide (t.inCursor = 1 ∧ t.inCount = 2 ∧ t.report.result = .frame (some [5, 6, 7, 8]))) = true := by
  decide
theorem test_dequeue_D3_empty :
    nextIs (exec .dequeue { holding .receive with inCursor := 2 }) (fun t =>
      decide (t.inCursor = 2 ∧ t.inCount = 0 ∧ t.report.result = .frame none)) = true := by decide
theorem test_try_reserve_out_T2_wraps :
    nextIs (exec .tryReserveOut { holding .submit with outCursor := 3, outCount := 2 }) (fun t =>
      decide (t.outCursor = 0 ∧ t.outCount = 1 ∧ t.report.result = .slot (some 3))) = true := by decide
theorem test_try_reserve_out_T3_empty :
    nextIs (exec .tryReserveOut { holding .submit with outCursor := 2 }) (fun t =>
      decide (t.outCursor = 2 ∧ t.outCount = 0 ∧ t.report.result = .slot none)) = true := by decide
theorem test_advance_in_A2_wraps :
    nextIs (exec .advanceIn { holding .submit with inCursor := 3, inCount := 3 }) (fun t =>
      condsAre t [] && decide (t.inCursor = 0 ∧ t.inCount = 4)) = true := by decide
theorem test_advance_in_A3_full_still_moves :
    nextIs (exec .advanceIn { holding .submit with inCursor := 3, inCount := 4 }) (fun t =>
      condsAre t [.inboundOverflow] && decide (t.inCursor = 0 ∧ t.inCount = 4)) = true := by decide
theorem test_rearm_M3 :
    nextIs (exec .rearm { ready with outCursor := 3, outCount := 2, inCursor := 3, inCount := 4 })
      (fun t => condsAre t [.inboundOverflow] && decide (t.outCursor = 0 ∧ t.outCount = 1 ∧
        t.inCursor = 0 ∧ t.inCount = 4 ∧ t.rxAddr = 0x100 ∧ t.txAddr = 0x00C)) = true := by decide
theorem test_rearm_M4_both_conditions :
    nextIs (exec .rearm { ready with outCursor := 2, inCursor := 1, inCount := 4 }) (fun t =>
      condsAre t [.inboundOverflow, .outboundEmpty] && decide (t.outCursor = 2 ∧ t.outCount = 0 ∧
        t.inCursor = 2 ∧ t.rxAddr = 0x108 ∧ t.txAddr = 0x200 ∧ t.lock = false)) = true := by decide
theorem test_halt_engine_EV9 :
    nextIs (exec .haltEngine { ready with txRemain := 3, txq := [0xAB] }) (fun t =>
      decide (t.rxTrigEn = false ∧ t.txTrigEn = false ∧ t.txRemain = 0 ∧ t.txq = [0xAB] ∧
        t.report.txAbort = true)) = true := by decide
theorem test_drain_rxq_three :
    nextIs (exec .drainRxq { ready with rxq := [1, 2, 3] }) (fun t =>
      decide (t.rxq = [] ∧ t.report.rxqPops = 3)) = true := by decide
theorem test_set_trig_A5 :
    nextIs (step (afterReset.withFetchWord 8 0xA5)) (fun t =>
      decide (t.rxTrigEn = true ∧ t.txTrigEn = false)) = true := by decide
theorem test_set_trig_A6 :
    nextIs (step ({ ready with rxTrigEn := true }.withFetchWord 8 0xA6)) (fun t =>
      decide (t.rxTrigEn = false ∧ t.txTrigEn = true)) = true := by decide

/-! ## Steps without a word -/

theorem test_detect_G4_under_lock :
    nextIs (step { holding .submit with pendD := true, sched := [.env (.sel true)] }) (fun t =>
      decide (t.linkPhase = .active ∧ t.pendA = true ∧ t.pendD = true ∧ t.syncFault = false)) = true := by
  decide
theorem test_detect_G5_loses_edge :
    nextIs (step { holding .submit with
        pendA := true, pendD := true, linkPhase := .active, sel := true,
        sched := [.env (.sel false)] }) (fun t =>
      condsAre t [.syncFault] && decide (t.linkPhase = .idle ∧ t.pendA = true ∧ t.pendD = true ∧
        t.syncFault = true)) = true := by decide
theorem test_service_S3_deassert_first :
    nextIs (step { ready with
        pendA := true, pendD := true, linkPhase := .active, sel := true, sched := [.service] })
      (fun t => decide (t.pendA = true ∧ t.pendD = false ∧ t.inCount = 1)) = true := by decide
theorem test_service_S4_assert_first :
    nextIs (step { ready with pendA := true, pendD := true, sched := [.service] })
      (fun t => decide (t.pendA = false ∧ t.pendD = true ∧ t.inCount = 0)) = true := by decide
theorem test_tx_EV1 :
    okIs (envStep .txByte { ready with
        txAddr := 0, txRemain := 3, mem := [(0, 0xAA), (1, 0xAB), (2, 0xAC), (3, 0xAD)] }) (fun t =>
      decide (t.txq = [0xAB] ∧ t.txRemain = 2)) = true := by decide
theorem test_exchange_EV4 :
    okIs (envStep (.xchg 0x11) { ready with sel := true, txq := [0xAA] }) (fun t =>
      decide (t.txq = [] ∧ t.rxq = [0x11] ∧ t.masterLog = [0xAA])) = true := by decide
theorem test_exchange_EV8_full_queue_loses_byte :
    okIs (envStep (.xchg 0x99) { ready with
        sel := true, txq := [1], rxq := [1, 2, 3, 4, 5, 6, 7, 8] }) (fun t =>
      decide (t.rxq = [1, 2, 3, 4, 5, 6, 7, 8])) = true := by decide
theorem test_rx_EV7 :
    okIs (envStep .rxByte { ready with rxAddr := 0x104, rxq := [0x11] }) (fun t =>
      decide (t.mem = [(0x104, 0x11)] ∧ t.rxRemain = 3 ∧ t.rxq = [])) = true := by decide
/-- R9, R145: with an active-low line the electrical level 0 means asserted. -/
theorem test_active_low_pin :
    okIs (envStep (.pin false) { ready with cfg := { exConfig with selActiveLevel := false } })
      (fun t => decide (t.sel = true ∧ t.pendA = true)) = true := by decide
/-- R79, R250: a `RECEIVE` from a full ring while the RX channel writes the bound slot: the second byte is
overwritten after the first is copied and before it is copied itself. -/
theorem test_receive_mixture :
    nextIs (exec .receive { holding .receive with
        inCount := 4, rxRemain := 3, rxq := [0xEE], during := [[], [.rxByte]],
        mem := [(0x100, 1), (0x101, 2), (0x102, 3), (0x103, 4)] }) (fun t =>
      decide (t.respSize = 4 ∧ t.respFrame = [1, 0xEE, 3, 4] ∧ t.inCount = 3 ∧ t.rxq = [])) = true := by decide
theorem test_refused_H7 : refusedWith (step { afterReset with sched := [.cmd 0x08 0] })
    (.beforeInit "SUBMIT") = true := by decide
/-- H9, H10 with a host operation held (log entry 25). -/
theorem test_refused_while_held :
    refusedWith (step { holding .submit with sched := [.cmd 0x98 0] }) (.notHostWord 0x98) = true ∧
    refusedWith (step { holding .submit with sched := [.cmd 0x05 0] }) (.reservedWord 0x05) = true ∧
    refusedWith (step { holding .submit with sched := [.cmd 0x04 0] }) .secondInit = true ∧
    nextIs (step { holding .submit with sched := [.cmd 0x0C 0] }) (fun t =>
      decide (t.hcmd = (holding .submit).hcmd ∧ t.hseq = .held)) = true := by decide
/-- R201: a byte staged with the line deasserted breaks the premise, as a turn and inside a copy; a step that is
disabled does not, nor does one after the line is asserted, nor one listed for a copy that does not happen. -/
theorem test_noIdlePrefetch :
    ({ ready with sched := [.env .txByte] } : State).noIdlePrefetch = false ∧
    ({ holding .submit with sched := [.body [[], [.txByte]]] } : State).noIdlePrefetch = false ∧
    ({ holding .submit with txRemain := 0, sched := [.body [[.txByte]]] } : State).noIdlePrefetch = true ∧
    ({ holding .submit with sched := [.body [[.sel true], [.txByte]]] } : State).noIdlePrefetch = true ∧
    ({ holding .submit with outCount := 4, sched := [.body [[.txByte]]] } : State).noIdlePrefetch =
      true := by decide
/-- A `SUBMIT` held while the line is asserted. -/
def holdingActive : State := { holding .submit with sel := true, linkPhase := .active }
/-- R246: bytes clocked while a deassert is pending, inside a copy in which the line falls and rises. -/
theorem test_masterWaited :
    ({ holdingActive with sched := [.body [[.sel false], [.sel true, .xchg 1]]] } : State).masterWaited =
      false ∧
    ({ holdingActive with sched := [.body [[.xchg 1], [.sel false]]] } : State).masterWaited = true ∧
    ({ holding .submit with pendD := true, sched := [.body [[.sel true]]] } :
      State).leavesLineDeasserted = false := by decide
theorem test_refused_H10 : refusedWith (step { ready with sched := [.cmd 0x98 0] })
    (.notHostWord 0x98) = true := by decide

/-! ## Witnesses

Each shows that the hypotheses of one statement are met together, clause by clause, by concrete inputs. -/

/-- The invariant as a test. -/
def invHolds (s : State) : Bool :=
  s.cfg.wf &&
  decide (s.outCount ≤ s.cfg.capacity ∧ s.inCount ≤ s.cfg.capacity ∧
    s.outCursor < s.cfg.capacity ∧ s.inCursor < s.cfg.capacity) &&
  decide (s.inited = true → s.rxLen = s.cfg.frameSize ∧ s.txLen = s.cfg.frameSize ∧
    s.rxAddr = slotAddr s.cfg s.cfg.inBase s.inCursor ∧
    (s.txAddr = s.cfg.zeroBase ∨ s.txAddr = slotAddr s.cfg s.cfg.outBase s.boundTxSlot) ∧
    s.rxRemain ≤ s.cfg.frameSize ∧ s.txRemain ≤ s.cfg.frameSize) &&
  decide ((s.hseq = .held → s.lock = true) ∧ (s.lock = true → s.hseq = .held) ∧
    (s.hseq = .held → s.inited = true) ∧ s.hcmd.frame.length = s.cfg.frameSize ∧
    s.respFrame.length = s.cfg.frameSize ∧ (s.respSize = 0 ∨ s.respSize = s.cfg.frameSize)) &&
  decide (s.inited = false → s.linkPhase = .idle ∧ s.pendA = false ∧ s.pendD = false ∧
    s.rxTrigEn = false ∧ s.txTrigEn = false) &&
  decide (s.inited = true → s.linkPhase = LinkPhase.ofLevel s.sel) &&
  decide (s.rxq.length ≤ s.cfg.rxqDepth ∧ s.txq.length ≤ s.cfg.txqDepth) &&
  decide (Memory.wf s.mem ∧ ∀ c ∈ s.mem, s.cfg.inOut c.1 = true ∨ s.cfg.inIn c.1 = true) &&
  decide (s.rxAddr < 2 ^ s.cfg.addrW ∧ s.txAddr < 2 ^ s.cfg.addrW ∧
    s.rxLen ≤ s.cfg.frameSize ∧ s.txLen ≤ s.cfg.frameSize) &&
  decide (∀ t ∈ s.sched, t.isAgents = true)

theorem inv_of_invHolds {s : State} (h : invHolds s = true) : s.Inv := by
  simp only [invHolds, Bool.and_eq_true, decide_eq_true_eq] at h
  obtain ⟨⟨⟨⟨⟨⟨⟨⟨⟨h₁, h₂⟩, h₃⟩, h₄⟩, h₅⟩, h₆⟩, h₇⟩, h₈⟩, h₉⟩, h₁₀⟩ := h
  exact ⟨h₁, ⟨h₂.1, h₂.2.1, h₂.2.2.1, h₂.2.2.2⟩,
    fun hi => ⟨(h₃ hi).1, (h₃ hi).2.1, (h₃ hi).2.2.1, (h₃ hi).2.2.2.1, (h₃ hi).2.2.2.2.1,
      (h₃ hi).2.2.2.2.2⟩,
    ⟨h₄.1, h₄.2.1, h₄.2.2.1, h₄.2.2.2.1, h₄.2.2.2.2.1, h₄.2.2.2.2.2⟩,
    fun hi => ⟨(h₅ hi).1, (h₅ hi).2.1, (h₅ hi).2.2.1, (h₅ hi).2.2.2.1, (h₅ hi).2.2.2.2⟩,
    h₆, ⟨h₇.1, h₇.2⟩, ⟨h₈.1, h₈.2⟩, ⟨h₉.1, h₉.2.1, h₉.2.2.1, h₉.2.2.2⟩, h₁₀⟩

/-- The last word of the map. -/
theorem witness_StepRunsTheDecodedWord :
    ({ ready with sched := [.issue 0xA7] } : State).sched = .issue 0xA7 :: [] ∧
    decode 0xA7 = .ok (.setTrig true true) := by
  decide
/-- Each host operation. -/
theorem witness_StepRunsTheHostCommand :
    ({ ready with sched := [.cmd 0x08 5] } : State).sched = .cmd 0x08 5 :: [] ∧ ready.hseq = .idle ∧
    decode 0x04 = .ok .init ∧ decode 0x08 = .ok .submit ∧ decode 0x0C = .ok .receive ∧
    Instr.format .init = .host ∧ Instr.format .submit = .host ∧ Instr.format .receive = .host := by
  decide
/-- Clause by clause; the last two by a reserved word and by a word of another format. -/
theorem witness_RefusedCommands :
    ({ afterReset with sched := [.cmd 0x08 0] } : State).sched = .cmd 0x08 0 :: [] ∧
    afterReset.inited = false ∧ ready.inited = true ∧ (holding .submit).inited = true ∧
    (decode 0x05).toOption = none ∧ (decode 0x44).toOption ≠ none ∧
    (0x44 : OpWord) ≠ 0x04 ∧ (0x44 : OpWord) ≠ 0x08 ∧ (0x44 : OpWord) ≠ 0x0C ∧
    ({ ready with sched := [.cmd 0x44 0] } : State).sched = .cmd 0x44 0 :: [] := by
  decide
/-- The second case in a state no run reaches. -/
theorem witness_NoCommandWhileHeld :
    ({ holding .submit with sched := [.cmd 0x08 0] } : State).sched = .cmd 0x08 0 :: [] ∧
    (holding .submit).hseq = .held ∧ (holding .submit).inited = true ∧
    ({ afterReset with hseq := .held, sched := [.cmd 0x04 0] } : State).sched = .cmd 0x04 0 :: [] ∧
    afterReset.inited = false := by
  decide
/-- Both bits with the line high and low, and one bit each. -/
theorem witness_ServiceTakesTheOlderEvent :
    ({ ready with sched := [.service] } : State).sched = .service :: [] ∧
    ready.inited = true ∧ ready.lock = false ∧ ready.pendA = false ∧ ready.pendD = false ∧
    ({ ready with pendA := true, pendD := true, linkPhase := .active } : State).serviceChoice =
      some .deasserted ∧
    ({ ready with pendA := true, pendD := true } : State).serviceChoice = some .asserted ∧
    ({ ready with pendD := true } : State).serviceChoice = some .deasserted ∧
    ({ ready with pendA := true } : State).serviceChoice = some .asserted := by
  decide
theorem witness_BlockGoesOnByItself :
    ready.sched = [] ∧ ({ ready with pendA := true } : State).serviceChoice = some .asserted ∧
    ({ ready with pendD := true } : State).serviceChoice = some .deasserted ∧
    (holding .submit).serviceChoice = none ∧ (holding .submit).hseq = .held ∧
    (holding .submit).lock = true ∧ (holding .submit).hcmd.op = .submit ∧
    (holding .receive).serviceChoice = none ∧ (holding .receive).hcmd.op = .receive ∧
    (holding .receive).sched = [] ∧ ready.serviceChoice = none ∧ ready.hseq = .idle := by
  decide
theorem witness_EventGoesBeforeCommand :
    ({ ready with sched := [.contend 0x08 0] } : State).sched = .contend 0x08 0 :: [] ∧
    ({ ready with pendA := true, sched := [.contend 0x08 0] } : State).serviceChoice =
      some .asserted ∧
    ({ ready with pendD := true, sched := [.contend 0x08 0] } : State).serviceChoice =
      some .deasserted ∧
    ({ ready with sched := [.contend 0x08 0] } : State).serviceChoice = none := by
  decide
theorem witness_BodyStepRunsTheHeldOperation :
    ({ holding .submit with sched := [.body [[.txByte]]] } : State).sched = .body [[.txByte]] :: [] ∧
    (holding .submit).hseq = .held ∧ (holding .submit).lock = true ∧
    (holding .submit).hcmd.op = .submit ∧ (holding .receive).hcmd.op = .receive := by
  decide
/-- Clause by clause. -/
theorem witness_DetectLatchesEdges :
    ({ ready with sched := [.env (.sel true)] } : State).sched = .env (.sel true) :: [] ∧
    afterReset.inited = false ∧ ready.inited = true ∧ ready.linkPhase = LinkPhase.ofLevel false ∧
    ready.linkPhase = .idle ∧ ready.pendA = false ∧ ready.pendD = false ∧
    ({ ready with linkPhase := .active } : State).linkPhase = .active ∧
    ({ ready with pendA := true } : State).pendA = true ∧
    ({ ready with linkPhase := .active, pendD := true } : State).pendD = true := by
  decide
/-- Under the lock a service turn, and an RX step that moves a byte. -/
theorem witness_LockWithholdsOnlyTheHandler :
    ({ holding .submit with sched := [.service] } : State).lock = true ∧
    ({ holding .submit with sched := [.service] } : State).sched = .service :: [] ∧
    okIs (envStep .rxByte { holding .submit with rxq := [1] }) (fun t => decide (t.rxq = [])) = true := by
  decide
theorem witness_AcquireSetsLock :
    ready.lock = false ∧ (holding .submit).lock = true := by
  decide
theorem witness_ReleaseClearsLock :
    (holding .submit).lock = true ∧ ready.lock = false ∧ (holding .submit).inited = true ∧
    ({ holding .submit with pendD := true } : State).pendD = true := by
  decide
theorem witness_InitPrimesTheBlock :
    afterReset.inited = false ∧ afterReset.hseq = .idle ∧ ready.inited = true := by
  decide
/-- The second clause with one slot left, the third with none. -/
theorem witness_SubmitAcquiresThenStoresOrDrops :
    ready.inited = true ∧ ready.hseq = .idle ∧ ready.lock = false ∧
    ({ holding .submit with outCount := 3 } : State).cfg.wf = true ∧
    (holding .submit).hseq = .held ∧ (holding .submit).hcmd.op = .submit ∧
    (holding .submit).lock = true ∧ (holding .submit).hcmd.frame.length = exConfig.frameSize ∧
    (holding .submit).during = [] ∧
    ({ holding .submit with outCount := 3 } : State).outCount ≠ exConfig.capacity ∧
    ({ holding .submit with outCount := 4 } : State).outCount = exConfig.capacity := by
  decide
/-- The second clause with one frame and with a full ring. -/
theorem witness_ReceiveAcquiresThenReturnsOldest :
    ready.inited = true ∧ ready.hseq = .idle ∧ ready.lock = false ∧ (holding .receive).cfg.wf = true ∧
    (holding .receive).hseq = .held ∧ (holding .receive).hcmd.op = .receive ∧
    (holding .receive).lock = true ∧ (holding .receive).during = [] ∧
    0 < ({ holding .receive with inCount := 1 } : State).inCount ∧
    ({ holding .receive with inCount := 4 } : State).inCount ≤ exConfig.capacity ∧
    (holding .receive).inCount = 0 := by
  decide
theorem witness_HostOperationEndsInTwoSteps :
    ({ ready with sched := [.cmd 0x0C 0, .body []] } : State).Inv ∧ ready.inited = true ∧
    ready.hseq = .idle ∧
    ({ ready with sched := [.cmd 0x0C 0, .body []] } : State).sched = .cmd 0x0C 0 :: .body [] :: [] :=
  ⟨inv_of_invHolds (by decide), by decide⟩
/-- One slot left, and none. -/
theorem witness_EnqueueStoresOrDrops :
    ({ holding .submit with outCount := 3 } : State).cfg.wf = true ∧ (holding .submit).lock = true ∧
    (holding .submit).hcmd.frame.length = exConfig.frameSize ∧ (holding .submit).during = [] ∧
    ({ holding .submit with outCount := 3 } : State).outCount ≠ exConfig.capacity ∧
    ({ holding .submit with outCount := 4 } : State).outCount = exConfig.capacity ∧
    ready.lock = false := by
  decide
/-- One frame, a full ring, and none. -/
theorem witness_DequeueReturnsOldestOrNone :
    (holding .receive).cfg.wf = true ∧ (holding .receive).lock = true ∧ (holding .receive).during = [] ∧
    0 < ({ holding .receive with inCount := 1 } : State).inCount ∧
    ({ holding .receive with inCount := 4 } : State).inCount ≤ exConfig.capacity ∧
    (holding .receive).inCount = 0 ∧ ready.lock = false := by
  decide
theorem witness_ReserveTakesOldestSlotOrNone :
    (holding .submit).lock = true ∧ 0 < ({ holding .submit with outCount := 1 } : State).outCount ∧
    (holding .submit).outCount = 0 ∧ ready.lock = false := by
  decide
theorem witness_AdvanceInSaturatesAndMoves :
    (holding .submit).lock = true ∧
    ({ holding .submit with inCount := 3 } : State).inCount ≠ exConfig.capacity ∧
    ({ holding .submit with inCount := 4 } : State).inCount = exConfig.capacity ∧
    ready.lock = false := by
  decide
theorem witness_RearmAdvancesAndBinds :
    ready.lock = false ∧ ready.inited = true ∧ (holding .submit).lock = true ∧ afterReset.inited = false := by
  decide
theorem witness_HaltStopsBothChannels :
    nextIs (exec .haltEngine { ready with txRemain := 3 }) (fun t => decide (t.txRemain = 0)) = true := by
  decide
/-- An empty queue and one byte. -/
theorem witness_AssertDefersOnStaleQueue :
    ({ ready with pendA := true } : State).serviceChoice = some .asserted ∧ ready.txq = [] ∧
    ({ ready with pendA := true, txq := [7] } : State).serviceChoice = some .asserted ∧
    ({ ready with pendA := true, txq := [7] } : State).txq ≠ [] := by
  decide
theorem witness_DeassertRebuildsTheBinding :
    ({ ready with pendD := true } : State).serviceChoice = some .deasserted := by
  decide
theorem witness_CompositesAreTheirExpansions :
    ({ ready with pendD := true } : State).serviceChoice = some .deasserted ∧
    ({ ready with pendA := true } : State).serviceChoice = some .asserted ∧ ready.txq = [] ∧
    ({ ready with pendA := true, txq := [7] } : State).txq ≠ [] ∧
    (holding .submit).hseq = .held ∧ (holding .submit).lock = true ∧
    (holding .submit).hcmd.op = .submit ∧ (holding .receive).hcmd.op = .receive ∧
    ready.lock = false ∧ ready.inited = true ∧ ready.hseq = .idle ∧
    nextIs (runAll [.enqueue, .xdRelease] (holding .submit)) (fun t => decide (t.outCount = 1)) = true ∧
    nextIs (runAll [.dequeue, .xdRelease] { holding .receive with inCount := 1 })
      (fun t => match t.report.result with | .frame (some _) => true | _ => false) = true ∧
    nextIs (runAll [.dequeue, .xdRelease] (holding .receive))
      (fun t => decide (t.report.result = .frame none)) = true := by
  decide
/-- The last byte of the zero frame. -/
theorem witness_ZeroFrameReadsZero :
    3 < exConfig.frameSize := by
  decide
/-- The last byte of a slot. -/
theorem witness_ComputedAddressesInsideRegions :
    ready.Inv ∧ 3 < ready.cfg.frameSize ∧ ready.inited = true :=
  ⟨inv_of_invHolds (by decide), by decide⟩
/-- One free place in the queue; then each way of being disabled. -/
theorem witness_TxChannelMovesOneByte :
    ready.txTrigEn = true ∧ 0 < ready.txRemain ∧
    ({ ready with txq := [1, 2, 3, 4, 5, 6, 7] } : State).txq.length < exConfig.txqDepth ∧
    ready.txAddr + (ready.txLen - ready.txRemain) < 2 ^ exConfig.addrW ∧
    afterReset.txTrigEn = false ∧ ({ ready with txRemain := 0 } : State).txRemain = 0 ∧
    exConfig.txqDepth ≤ ({ ready with txq := [1, 2, 3, 4, 5, 6, 7, 8] } : State).txq.length := by
  decide
/-- The last byte of the slot; then each way of being disabled. -/
theorem witness_RxChannelMovesOneByte :
    ready.rxTrigEn = true ∧ 0 < ({ ready with rxRemain := 1 } : State).rxRemain ∧
    ({ ready with rxq := [9] } : State).rxq = 9 :: [] ∧
    ready.rxAddr + (ready.rxLen - 1) < 2 ^ exConfig.addrW ∧
    exConfig.inZero (ready.rxAddr + (ready.rxLen - 1)) = false ∧
    afterReset.rxTrigEn = false ∧ ({ ready with rxRemain := 0 } : State).rxRemain = 0 ∧
    ready.rxq = [] := by
  decide
theorem witness_MasterExchangesOneByte :
    ready.sel = false ∧ ({ ready with sel := true } : State).sel = true ∧
    ({ ready with txq := [7] } : State).txq = 7 :: [] := by
  decide
theorem witness_BlockReachesEnvironmentByPulsesOnly :
    ready.during = [] ∧ nextIs (exec .xdAcquire ready) (fun t => t.lock) = true ∧
    Instr.xdAcquire ≠ .drainRxq ∧ Instr.xdAcquire ≠ .selDeassert ∧ Instr.xdAcquire ≠ .init ∧
    Instr.xdAcquire ≠ .rearm ∧ Instr.xdAcquire ≠ .haltEngine := by
  decide
/-- An operation that stores and one that does not. -/
theorem witness_OnlyEnqueueWritesMemory :
    (holding .submit).during = [] ∧
    nextIs (exec .enqueue (holding .submit)) (fun t => decide (t.outCount = 1)) = true ∧
    nextIs (exec .drainRxq (holding .submit)) (fun t => decide (t.rxq = [])) = true ∧
    0 < exConfig.capacity ∧ (holding .submit).hcmd.frame.length = exConfig.frameSize ∧
    exConfig.inOut 0x010 = false := by
  decide
/-- A register of the detector, nothing happening inside the copy. -/
theorem witness_OnlyNamedOperationsWrite :
    nextIs (exec .enqueue (holding .submit)) (fun t => decide (t.outCount = 1)) = true ∧
    Reg.pendA ∉ Instr.mayWrite .enqueue ∧ Reg.pendA ∈ detectorRegs ∧ (holding .submit).during = [] := by
  decide
theorem witness_ParametersNeverChange :
    nextIs (step { ready with sched := [.rst] }) (fun t => decide (t.inited = false)) = true := by
  decide
/-- A deassert service from a state with the invariant. -/
theorem witness_StepKeepsInvariant :
    ({ ready with pendD := true, sched := [.service] } : State).Inv ∧
    nextIs (step { ready with pendD := true, sched := [.service] })
      (fun t => decide (t.inCount = 1)) = true :=
  ⟨inv_of_invHolds (by decide), by decide⟩
theorem witness_ResetMeetsInvariant :
    exConfig.wf = true := by
  decide
theorem witness_NothingIsFatal :
    ({ ready with sched := [.env (.xchg 5)] } : State).Inv ∧
    ∀ w f rest, ({ ready with sched := [.env (.xchg 5)] } : State).sched ≠ .cmd w f :: rest ∧
      ({ ready with sched := [.env (.xchg 5)] } : State).sched ≠ .contend w f :: rest :=
  ⟨inv_of_invHolds (by decide), by intro w f rest; exact ⟨by simp, by simp⟩⟩
/-- Both bits pending with the line high, the deassert serviced next. -/
theorem witness_PendingEdgesStayInOrder :
    ({ ready with pendA := true, pendD := true, linkPhase := .active, sel := true, sched :=
      [.service] } : State).EdgesInOrder ∧
    nextIs (step { ready with pendA := true, pendD := true, linkPhase := .active, sel := true, sched :=
      [.service] }) (fun t => decide (t.pendD = false)) = true :=
  ⟨by unfold State.EdgesInOrder; decide, by decide⟩
theorem witness_RegistersFitTheirWidths :
    ready.Inv ∧ Reg.width ready.cfg .outCount = some 3 :=
  ⟨inv_of_invHolds (by decide), by decide⟩
/-- One slot left, one stored frame, and none; held by the host and inside a rebind. -/
theorem witness_OutboundRingIsFifo :
    exConfig.wf = true ∧ ({ holding .submit with outCount := 3 } : State).RingsOk ∧
    ({ ready with lock := true } : State).RingsOk ∧ ({ ready with lock := true } : State).lock = true ∧
    ({ ready with lock := true } : State).hseq = .idle ∧ (holding .submit).lock = true ∧
    (holding .submit).during = [] ∧ (holding .submit).hcmd.frame.length = exConfig.frameSize ∧
    ({ holding .submit with outCount := 3 } : State).outCount ≠ exConfig.capacity ∧
    ({ ready with outCount := 1, mem := [(0, 1), (1, 2), (2, 3), (3, 4)] } : State).RingsOk ∧
    ({ ready with outCount := 1, mem := [(0, 1), (1, 2), (2, 3), (3, 4)] } : State).outQueue =
      [1, 2, 3, 4] :: [] ∧
    ready.outQueue = [] :=
  ⟨by decide, by constructor <;> decide, by constructor <;> decide, by decide, by decide, by decide,
    by decide, by decide, by decide, by constructor <;> decide, by decide, by decide⟩
/-- A full ring, one stored frame, and none; held by the host and inside a rebind. -/
theorem witness_InboundRingIsFifoNewestWins :
    exConfig.wf = true ∧ ({ ready with lock := true, inCount := 4 } : State).RingsOk ∧
    ({ ready with lock := true, inCount := 4 } : State).lock = true ∧
    ({ ready with lock := true, inCount := 4 } : State).hseq = .idle ∧
    ({ ready with lock := true, inCount := 4 } : State).inCount = exConfig.capacity ∧
    (holding .receive).lock = true ∧ (holding .receive).during = [] ∧
    ({ holding .receive with inCount := 1, mem :=
      [(0x10C, 1), (0x10D, 2), (0x10E, 3), (0x10F, 4)] } : State).RingsOk ∧
    ({ holding .receive with inCount := 1, mem :=
      [(0x10C, 1), (0x10D, 2), (0x10E, 3), (0x10F, 4)] } : State).inQueue = [1, 2, 3, 4] :: [] ∧
    (holding .receive).RingsOk ∧ (holding .receive).inQueue = [] :=
  ⟨by decide, by constructor <;> decide, by decide, by decide, by decide, by decide, by decide,
    by constructor <;> decide, by decide, by constructor <;> decide, by decide⟩
/-- Both operations, a full inbound ring. -/
theorem witness_RebindMovesOneFrameEachWay :
    ({ ready with inCount := 4 } : State).Inv ∧ ready.inited = true ∧ ready.lock = false ∧
    ({ ready with inCount := 4, pendD := true } : State).Inv ∧
    ({ ready with inCount := 4, pendD := true } : State).serviceChoice = some .deasserted :=
  ⟨inv_of_invHolds (by decide), by decide, by decide, inv_of_invHolds (by decide), by decide⟩
/-- An RX step inside a copy, line deasserted. -/
theorem witness_NoPrefetchLeavesIdleQueueAlone :
    (holding .submit).sel = false ∧
    ({ holding .submit with rxq := [7], sched := [.body [[.rxByte]]] } : State).noIdlePrefetch = true ∧
    (∀ e ∈ ({ holding .submit with rxq := [7], sched := [.body [[.rxByte]]] } : State).nextEnvSteps,
      e.asserts exConfig = false) ∧
    nextIs (step { holding .submit with rxq := [7], sched := [.body [[.rxByte]]] })
      (fun t => decide (t.rxq = [])) = true := by
  decide
/-- An RX step inside a copy while a deassert is pending. -/
theorem witness_WaitingMasterClocksNothing :
    ({ holding .submit with pendD := true, rxq := [7], sched := [.body [[.rxByte]]] } :
      State).masterWaited = true ∧
    ({ holding .submit with pendD := true, rxq := [7], sched := [.body [[.rxByte]]] } :
      State).leavesLineDeasserted = true ∧
    ({ holding .submit with pendD := true, rxq := [7], sched := [.body [[.rxByte]]] } :
      State).sel = false ∧
    nextIs (step { holding .submit with pendD := true, rxq := [7], sched := [.body [[.rxByte]]] })
      (fun t => decide (t.pendD = true ∧ t.rxq = [])) = true := by
  decide
/-- An edge and a channel step inside the copy. -/
theorem witness_SubmitRunsUnderAnyInterleaving :
    ({ holding .submit with during := [[.sel true], [.rxByte]], rxq := [7] } : State).Inv ∧
    (holding .submit).hseq = .held ∧ (holding .submit).hcmd.op = .submit ∧
    (holding .submit).outCount ≠ exConfig.capacity :=
  ⟨inv_of_invHolds (by decide), by decide⟩
/-- The mixture of `test_receive_mixture`. -/
theorem witness_ReceiveRunsUnderAnyInterleaving :
    ({ holding .receive with inCount := 4, rxRemain := 3, rxq := [0xEE], during := [[], [.rxByte]] } :
      State).Inv ∧ (holding .receive).hseq = .held ∧ (holding .receive).hcmd.op = .receive ∧
    (holding .receive).inCount = 0 :=
  ⟨inv_of_invHolds (by decide), by decide⟩
/-- An empty outbound ring. -/
theorem witness_SubmitAndDeassertSerialise :
    ({ ready with pendD := true } : State).Inv ∧ ready.hseq = .idle ∧ ready.during = [] ∧
    ({ ready with pendD := true } : State).serviceChoice = some .deasserted :=
  ⟨inv_of_invHolds (by decide), by decide⟩
/-- A full inbound ring. -/
theorem witness_ReceiveAndDeassertSerialise :
    ({ ready with pendD := true, inCount := 4 } : State).Inv ∧ ready.hseq = .idle ∧ ready.during = [] ∧
    ({ ready with pendD := true, inCount := 4 } : State).serviceChoice = some .deasserted :=
  ⟨inv_of_invHolds (by decide), by decide⟩
theorem witness_CleanFrameCycle :
    ({ ready with sched := Trace.xferCycle exConfig [1, 2, 3, 4] } : State).Inv ∧ ready.CleanIdle ∧
    ([1, 2, 3, 4] : List Byte).length = ready.cfg.frameSize :=
  ⟨inv_of_invHolds (by decide), by constructor <;> decide, by decide⟩
/-- Clause by clause. -/
theorem witness_GuardsRefuseIssuedWords :
    ready.pendA = false ∧ ready.pendD = false ∧
    (({ ready with pendA := true, pendD := true, linkPhase := .active } : State).pendD = true ∧
      ({ ready with pendA := true, pendD := true, linkPhase := .active } : State).linkPhase =
        .active) ∧
    (({ ready with pendA := true, pendD := true } : State).pendA = true ∧ ready.linkPhase = .idle) ∧
    (holding .submit).hseq = .held ∧ (holding .submit).hcmd.op ≠ .receive ∧
    (holding .receive).hcmd.op ≠ .submit ∧
    ({ holding .submit with lock := false } : State).lock = false ∧
    (holding .submit).lock = true ∧ ({ ready with lock := true } : State).hseq = .idle ∧
    ready.inited = true ∧ ready.lock = false ∧ afterReset.inited = false ∧
    ({ afterReset with hseq := .held } : State).hseq = .held := by
  decide
/-- Clause by clause. -/
theorem witness_DisabledTurnsChangeNothing :
    ({ ready with sched := [.body []] } : State).sched = .body [] :: [] ∧ ready.hseq = .idle ∧
    ({ ready with sched := [.service] } : State).sched = .service :: [] ∧ ready.pendA = false ∧
    ready.pendD = false ∧ ready.lock = false ∧ (holding .submit).lock = true ∧
    afterReset.inited = false ∧
    ({ ready with sched := [.env (.xchg 3)] } : State).sched = .env (.xchg 3) :: [] ∧
    ready.sel = false ∧ afterReset.txTrigEn = false ∧
    ({ ready with txRemain := 0 } : State).txRemain = 0 ∧
    ({ ready with sched := [.env .txByte] } : State).sched = .env .txByte :: [] ∧
    exConfig.txqDepth ≤ ({ ready with txq := [1, 2, 3, 4, 5, 6, 7, 8] } : State).txq.length ∧
    ({ ready with sched := [.env .rxByte] } : State).sched = .env .rxByte :: [] ∧
    ({ ready with rxRemain := 0 } : State).rxRemain = 0 ∧ ready.rxq = [] := by
  decide
theorem witness_DecodeEncodeAgree :
    Instr.wf (.setTrig true false) = true ∧ decode 0xA6 = .ok (.setTrig true false) := by
  decide
/-- The last byte of the zero frame. -/
theorem witness_ResetValues :
    3 < exConfig.frameSize := by
  decide
theorem witness_RstClearsTheBlockOnly :
    ({ holding .submit with sched := [.rst] } : State).sched = .rst :: [] := by
  decide

end Sys2Proof.Tests
end

section
/-! SUPPORT. What each operation, each turn and each step can do where it has a next state: guard and next state in
terms of the shared operations. The parameters and every other claim over all steps are read off these. -/

namespace Sys2Proof.Machine

theorem ok_of_finish_next {x : Except Fault State} {t : State} (h : finish x = .next t) : x = .ok t := by
  cases x with
  | error r => cases h
  | ok u => cases h; rfl

/-! ### The operations -/

theorem exec_init_next {s t : State} (h : exec .init s = .next t) :
    s.inited = false ∧ s.hseq = .idle ∧ t = s.initialised := by
  simp only [exec, execInit] at h
  split at h
  · cases h
  · next hi =>
    split at h
    · next hq => cases h; exact ⟨by simpa using hi, hq, rfl⟩
    · cases h

theorem State.submitBody_ok {s t : State} (h : s.submitBody = .ok t) :
    ∃ u ok, s.enqueue s.hcmd.frame = .ok (u, ok) ∧ t = u.hostRelease := by
  unfold State.submitBody at h
  split at h
  · cases h
  · next u ok hu => cases h; exact ⟨u, ok, hu, rfl⟩

theorem State.receiveBody_ok {s t : State} (h : s.receiveBody = .ok t) :
    ∃ u r, s.dequeue = .ok (u, r) ∧ t = (State.respond r u).hostRelease := by
  unfold State.receiveBody at h
  split at h
  · cases h
  · next u r hu => cases h; exact ⟨u, r, hu, rfl⟩

/-- The two steps of `SUBMIT` (R166): `.acquire`, then `.body`. -/
theorem exec_submit_next {s t : State} (h : exec .submit s = .next t) :
    (s.hseq = .idle ∧ s.inited = true ∧ s.lock = false ∧
      t = State.hostAcquire { op := .submit, frame := s.portOperand } s) ∨
    (s.hseq = .held ∧ s.hcmd.op = .submit ∧ s.lock = true ∧
      ∃ u ok, s.enqueue s.hcmd.frame = .ok (u, ok) ∧ t = u.hostRelease) := by
  simp only [exec, execSubmit] at h
  split at h
  · next hq =>
    split at h
    · next hi =>
      split at h
      · cases h
      · next hl => cases h; exact .inl ⟨hq, hi, by simpa using hl, rfl⟩
    · cases h
  · next hq =>
    split at h
    · next hg => exact .inr ⟨hq, hg.1, hg.2, State.submitBody_ok (ok_of_finish_next h)⟩
    · cases h

/-- The two steps of `RECEIVE` (R167): `.acquire`, then `.body`. -/
theorem exec_receive_next {s t : State} (h : exec .receive s = .next t) :
    (s.hseq = .idle ∧ s.inited = true ∧ s.lock = false ∧
      t = State.hostAcquire { s.hcmd with op := .receive } s) ∨
    (s.hseq = .held ∧ s.hcmd.op = .receive ∧ s.lock = true ∧
      ∃ u r, s.dequeue = .ok (u, r) ∧ t = (State.respond r u).hostRelease) := by
  simp only [exec, execReceive] at h
  split at h
  · next hq =>
    split at h
    · next hi =>
      split at h
      · cases h
      · next hl => cases h; exact .inl ⟨hq, hi, by simpa using hl, rfl⟩
    · cases h
  · next hq =>
    split at h
    · next hg => exact .inr ⟨hq, hg.1, hg.2, State.receiveBody_ok (ok_of_finish_next h)⟩
    · cases h

theorem exec_selAssert_next {s t : State} (h : exec .selAssert s = .next t) :
    s.serviceChoice = some .asserted ∧ t = (State.takeEvent .asserted s).handleAssert := by
  simp only [exec, execSelAssert] at h
  split at h
  · next hg => cases h; exact ⟨hg, rfl⟩
  · cases h

theorem exec_selDeassert_next {s t : State} (h : exec .selDeassert s = .next t) :
    s.serviceChoice = some .deasserted ∧ t = (State.takeEvent .deasserted s).handleDeassert := by
  simp only [exec, execSelDeassert] at h
  split at h
  · next hg => cases h; exact ⟨hg, rfl⟩
  · cases h

theorem exec_xdAcquire_next {s t : State} (h : exec .xdAcquire s = .next t) :
    s.lock = false ∧ t = s.takeLock := by
  simp only [exec, execXdAcquire] at h
  split at h
  · cases h
  · next hl => cases h; exact ⟨by simpa using hl, rfl⟩

theorem exec_xdRelease_next {s t : State} (h : exec .xdRelease s = .next t) :
    s.lock = true ∧ t = s.dropLock := by
  simp only [exec, execXdRelease] at h
  split at h
  · next hl => cases h; exact ⟨hl, rfl⟩
  · cases h

theorem exec_enqueue_next {s t : State} (h : exec .enqueue s = .next t) :
    s.lock = true ∧
      ∃ u ok, s.enqueue s.hcmd.frame = .ok (u, ok) ∧ t = State.withResult (.ok ok) u := by
  simp only [exec, execEnqueue] at h
  split at h
  · next hl =>
    split at h
    · cases h
    · next u ok hu => cases h; exact ⟨hl, u, ok, hu, rfl⟩
  · cases h

theorem exec_dequeue_next {s t : State} (h : exec .dequeue s = .next t) :
    s.lock = true ∧ ∃ u r, s.dequeue = .ok (u, r) ∧ t = State.withResult (.frame r) u := by
  simp only [exec, execDequeue] at h
  split at h
  · next hl =>
    split at h
    · cases h
    · next u r hu => cases h; exact ⟨hl, u, r, hu, rfl⟩
  · cases h

theorem exec_tryReserveOut_next {s t : State} (h : exec .tryReserveOut s = .next t) :
    s.lock = true ∧ t = State.withResult (.slot s.reservedSlot) s.reserveOut := by
  simp only [exec, execTryReserveOut] at h
  split at h
  · next hl => cases h; exact ⟨hl, rfl⟩
  · cases h

theorem exec_advanceIn_next {s t : State} (h : exec .advanceIn s = .next t) :
    s.lock = true ∧ t = s.advanceIn := by
  simp only [exec, execAdvanceIn] at h
  split at h
  · next hl => cases h; exact ⟨hl, rfl⟩
  · cases h

theorem exec_rearm_next {s t : State} (h : exec .rearm s = .next t) :
    s.lock = false ∧ s.inited = true ∧ t = s.rearm := by
  simp only [exec, execRearm] at h
  split at h
  · next hg => cases h; exact ⟨hg.1, hg.2, rfl⟩
  · cases h

theorem exec_haltEngine_next {s t : State} (h : exec .haltEngine s = .next t) : t = s.haltEngine := by
  cases h; rfl

theorem exec_drainRxq_next {s t : State} (h : exec .drainRxq s = .next t) : t = s.drainRxq := by
  cases h; rfl

theorem exec_setTrig_next {a b : Bool} {s t : State} (h : exec (.setTrig a b) s = .next t) :
    t = State.setTrig a b s := by
  cases h; rfl

/-! ### The turns -/

/-- What a turn has changed before an operation runs: the host's inputs, the steps listed for a frame copy, the
schedule and the report. -/
def State.Prepared (s u : State) : Prop :=
  ∃ w f d c r, u = { s with cmd := w, cmdFrame := f, during := d, sched := c, report := r }

theorem State.Prepared.refl (s : State) : s.Prepared s := ⟨_, _, _, _, _, rfl⟩

theorem State.Prepared.trans {s u v : State} (h₁ : s.Prepared u) (h₂ : u.Prepared v) : s.Prepared v := by
  obtain ⟨_, _, _, _, _, rfl⟩ := h₁
  obtain ⟨_, _, _, _, _, rfl⟩ := h₂
  exact ⟨_, _, _, _, _, rfl⟩

theorem State.prepared_begin (c : List Turn) (s : State) : s.Prepared (s.begin c) := ⟨_, _, _, _, _, rfl⟩

theorem State.prepared_present (w : OpWord) (f : Nat) (s : State) : s.Prepared (s.present w f) :=
  ⟨_, _, _, _, _, rfl⟩

/-- `t` is a next state the block gives from `s` outside a reset: an operation run, or nothing done, after the turn's
preparation. -/
def State.BlockMoves (s t : State) : Prop :=
  ∃ u, s.Prepared u ∧ (t = u ∨ ∃ i, exec i u = .next t)

theorem State.Prepared.blockMoves {s u t : State} (h : s.Prepared u) (h' : u.BlockMoves t) :
    s.BlockMoves t := by
  obtain ⟨v, hv, ht⟩ := h'
  exact ⟨v, h.trans hv, ht⟩

theorem blockMoves_of_exec {i : Instr} {s t : State} (h : exec i s = .next t) : s.BlockMoves t :=
  ⟨s, .refl s, .inr ⟨i, h⟩⟩

theorem blockMoves_refl (s : State) : s.BlockMoves s := ⟨s, .refl s, .inl rfl⟩

theorem runWord_next {w : OpWord} {s t : State} (h : runWord w s = .next t) : s.BlockMoves t := by
  unfold runWord at h
  split at h
  · cases h
  · exact blockMoves_of_exec h

/-- A word presented while a host operation is held is refused or changes nothing. -/
theorem presentWhileHeld_next {i : Instr} {s t : State} (h : presentWhileHeld i s = .next t) : t = s := by
  unfold presentWhileHeld at h
  split at h <;> cases h <;> rfl

theorem acceptCommand_next {s t : State} (h : acceptCommand s = .next t) : s.BlockMoves t := by
  unfold acceptCommand at h
  split at h
  · cases h
  · split at h
    · split at h
      · exact blockMoves_of_exec h
      · rw [presentWhileHeld_next h]; exact blockMoves_refl s
    · cases h

theorem bodyTurn_next {d : List (List EnvStep)} {s t : State} (h : bodyTurn d s = .next t) :
    s.BlockMoves t := by
  unfold bodyTurn at h
  split at h
  · exact State.Prepared.blockMoves ⟨_, _, d, _, _, rfl⟩ (blockMoves_of_exec h)
  · cases h; exact blockMoves_refl s

theorem serviceTurn_next {s t : State} (h : serviceTurn s = .next t) : s.BlockMoves t := by
  unfold serviceTurn at h
  split at h
  · exact blockMoves_of_exec h
  · cases h; exact blockMoves_refl s

theorem contendTurn_next {w : OpWord} {f : Nat} {s t : State} (h : contendTurn w f s = .next t) :
    s.BlockMoves t := by
  unfold contendTurn at h
  split at h
  · exact State.Prepared.blockMoves ⟨_, _, _, .cmd w f :: s.sched, _, rfl⟩ (blockMoves_of_exec h)
  · exact (State.prepared_present w f s).blockMoves (acceptCommand_next h)

theorem idleTurn_next {s t : State} (h : idleTurn s = .next t) : s.BlockMoves t := by
  unfold idleTurn at h
  split at h
  · exact blockMoves_of_exec h
  · exact bodyTurn_next h

/-- All that a turn can do: a move of the block, a step outside it, or a reset. -/
theorem runTurn_next {u : Turn} {s t : State} (h : runTurn u s = .next t) :
    s.BlockMoves t ∨ (∃ e, envStep e s = .ok t) ∨ t = s.afterRst := by
  cases u with
  | cmd w f => exact .inl ((State.prepared_present w f s).blockMoves (acceptCommand_next h))
  | body d => exact .inl (bodyTurn_next h)
  | service => exact .inl (serviceTurn_next h)
  | contend w f => exact .inl (contendTurn_next h)
  | env e => exact .inr (.inl ⟨e, ok_of_finish_next h⟩)
  | rst => cases h; exact .inr (.inr rfl)
  | issue w => exact .inl (runWord_next h)

/-- All that a step can do. -/
theorem step_next {s t : State} (h : step s = .next t) :
    s.BlockMoves t ∨ (∃ e c, envStep e (s.begin c) = .ok t) ∨ ∃ c, t = (s.begin c).afterRst := by
  cases hs : s.sched with
  | nil =>
    rw [step_idle hs] at h
    exact .inl ((State.prepared_begin [] s).blockMoves (idleTurn_next h))
  | cons u c =>
    rw [step_turn hs] at h
    rcases runTurn_next h with hb | ⟨e, he⟩ | rfl
    · exact .inl ((State.prepared_begin c s).blockMoves hb)
    · exact .inr (.inl ⟨e, c, he⟩)
    · exact .inr (.inr ⟨c, rfl⟩)

end Sys2Proof.Machine
end

section
/-! SUPPORT. The parameters (`00_scope.md` R5 to R9) under each shared operation, each operation and each step. -/

namespace Sys2Proof.Machine

@[simp] theorem State.advanceIn_cfg (s : State) : s.advanceIn.cfg = s.cfg := by rw [State.advanceIn_eq]

@[simp] theorem State.reserveOut_cfg (s : State) : s.reserveOut.cfg = s.cfg := by rw [State.reserveOut_eq]

@[simp] theorem State.rearm_cfg (s : State) : s.rearm.cfg = s.cfg := by rw [State.rearm_eq]

@[simp] theorem State.handleAssert_cfg (s : State) : s.handleAssert.cfg = s.cfg := by
  rw [State.handleAssert_eq]

@[simp] theorem State.handleDeassert_cfg (s : State) : s.handleDeassert.cfg = s.cfg := by
  rw [State.handleDeassert_eq]

@[simp] theorem State.takeEvent_cfg (e : Edge) (s : State) : (State.takeEvent e s).cfg = s.cfg := by
  rw [State.takeEvent_eq]

@[simp] theorem State.initialised_cfg (s : State) : s.initialised.cfg = s.cfg := by
  rw [State.initialised_eq]

@[simp] theorem State.respond_cfg (r : Option Frame) (s : State) : (State.respond r s).cfg = s.cfg := by
  cases r <;> rfl

@[simp] theorem State.afterRst_cfg (s : State) : s.afterRst.cfg = s.cfg := rfl

theorem State.Prepared.cfg {s u : State} (h : s.Prepared u) : u.cfg = s.cfg := by
  obtain ⟨_, _, _, _, _, rfl⟩ := h; rfl

/-- Whatever other agents do inside the frame copy of `ENQUEUE`. -/
theorem State.enqueue_cfg {s t : State} {f : Frame} {ok : Bool} (h : s.enqueue f = .ok (t, ok)) :
    t.cfg = s.cfg := by
  rcases State.enqueue_ok h with ⟨-, -, rfl⟩ | ⟨-, -, u, -, hk, rfl⟩
  · rfl
  · exact hk.cfg

/-- Whatever other agents do inside the frame copy of `DEQUEUE`. -/
theorem State.dequeue_cfg {s t : State} {r : Option Frame} (h : s.dequeue = .ok (t, r)) :
    t.cfg = s.cfg := by
  rcases State.dequeue_ok h with ⟨-, -, rfl⟩ | ⟨-, u, f, -, hk, -, -, rfl⟩
  · rfl
  · exact hk.cfg

theorem exec_cfg {i : Instr} {s t : State} (h : exec i s = .next t) : t.cfg = s.cfg := by
  cases i with
  | init => obtain ⟨-, -, rfl⟩ := exec_init_next h; simp
  | submit =>
    rcases exec_submit_next h with ⟨-, -, -, rfl⟩ | ⟨-, -, -, u, ok, hu, rfl⟩
    · simp
    · simp [State.enqueue_cfg hu]
  | receive =>
    rcases exec_receive_next h with ⟨-, -, -, rfl⟩ | ⟨-, -, -, u, r, hu, rfl⟩
    · simp
    · simp [State.dequeue_cfg hu]
  | selAssert => obtain ⟨-, rfl⟩ := exec_selAssert_next h; simp
  | selDeassert => obtain ⟨-, rfl⟩ := exec_selDeassert_next h; simp
  | xdAcquire => obtain ⟨-, rfl⟩ := exec_xdAcquire_next h; simp
  | xdRelease => obtain ⟨-, rfl⟩ := exec_xdRelease_next h; simp
  | enqueue => obtain ⟨-, u, ok, hu, rfl⟩ := exec_enqueue_next h; simp [State.enqueue_cfg hu]
  | dequeue => obtain ⟨-, u, r, hu, rfl⟩ := exec_dequeue_next h; simp [State.dequeue_cfg hu]
  | tryReserveOut => obtain ⟨-, rfl⟩ := exec_tryReserveOut_next h; simp
  | advanceIn => obtain ⟨-, rfl⟩ := exec_advanceIn_next h; simp
  | rearm => obtain ⟨-, -, rfl⟩ := exec_rearm_next h; simp
  | haltEngine => rw [exec_haltEngine_next h]; simp
  | drainRxq => rw [exec_drainRxq_next h]; simp
  | setTrig a b => rw [exec_setTrig_next h]; simp

theorem State.BlockMoves.cfg {s t : State} (h : s.BlockMoves t) : t.cfg = s.cfg := by
  obtain ⟨u, hu, rfl | ⟨i, hi⟩⟩ := h
  · exact hu.cfg
  · exact (exec_cfg hi).trans hu.cfg

/-- Settles O41: a step is a move of the block, a step outside it, or a reset, and each keeps the parameters. -/
theorem parametersNeverChange : Obligations.ParametersNeverChange := by
  intro s t h
  rcases step_next h with hb | ⟨e, c, he⟩ | ⟨c, rfl⟩
  · exact hb.cfg
  · exact (envStep_keeps he).cfg
  · rfl

end Sys2Proof.Machine
end

section
/-! SUPPORT. The widths of the registers (`00_scope.md` R7, `10_state.md` R20): what `clog2` gives, and each register
under the invariant. -/

namespace Sys2Proof

/-- R7: `clog2 n` bits hold `n` values. -/
theorem le_two_pow_clog2 (n : Nat) : n ≤ 2 ^ clog2 n := by
  unfold clog2
  cases h : (List.range (n + 1)).find? (fun k => decide (n ≤ 2 ^ k)) with
  | none => exact Nat.lt_two_pow_self.le
  | some k => simpa using List.find?_some h

theorem Config.lt_two_pow_idxW {c : Config} {n : Nat} (h : n < c.capacity) : n < 2 ^ c.idxW :=
  calc n < c.capacity := h
    _ ≤ 2 ^ clog2 c.capacity := le_two_pow_clog2 _
    _ ≤ 2 ^ c.idxW := Nat.pow_le_pow_right (by decide) (Nat.le_max_right ..)

theorem Config.lt_two_pow_cntW {c : Config} {n : Nat} (h : n ≤ c.capacity) : n < 2 ^ c.cntW :=
  (Nat.lt_succ_of_le h).trans_le (le_two_pow_clog2 _)

theorem Config.lt_two_pow_lenW {c : Config} {n : Nat} (h : n ≤ c.frameSize) : n < 2 ^ c.lenW :=
  (Nat.lt_succ_of_le h).trans_le (le_two_pow_clog2 _)

namespace Machine

theorem LinkPhase.toNat_lt (p : LinkPhase) : p.toNat < 2 ^ 1 := by cases p <;> decide

theorem HostSeq.toNat_lt (q : HostSeq) : q.toNat < 2 ^ 1 := by cases q <;> decide

/-- Settles O46, register by register: a cursor is below `CAPACITY`, a count at most `CAPACITY`, a length at most
`FRAME_SIZE`, and an address exists. -/
theorem registersFitTheirWidths : Obligations.RegistersFitTheirWidths := by
  intro s r w hs hw
  have hr := hs.rings
  have hb := hs.widths
  cases r <;> cases hw
  case inited => exact ⟨_, rfl, s.inited.toNat_lt⟩
  case lock => exact ⟨_, rfl, s.lock.toNat_lt⟩
  case linkPhase => exact ⟨_, rfl, s.linkPhase.toNat_lt⟩
  case pendA => exact ⟨_, rfl, s.pendA.toNat_lt⟩
  case pendD => exact ⟨_, rfl, s.pendD.toNat_lt⟩
  case syncFault => exact ⟨_, rfl, s.syncFault.toNat_lt⟩
  case hseq => exact ⟨_, rfl, s.hseq.toNat_lt⟩
  case outCursor => exact ⟨_, rfl, Config.lt_two_pow_idxW hr.outCursor⟩
  case outCount => exact ⟨_, rfl, Config.lt_two_pow_cntW hr.outCount⟩
  case inCursor => exact ⟨_, rfl, Config.lt_two_pow_idxW hr.inCursor⟩
  case inCount => exact ⟨_, rfl, Config.lt_two_pow_cntW hr.inCount⟩
  case rxAddr => exact ⟨_, rfl, hb.rxAddr⟩
  case rxLen => exact ⟨_, rfl, Config.lt_two_pow_lenW hb.rxLen⟩
  case txAddr => exact ⟨_, rfl, hb.txAddr⟩
  case txLen => exact ⟨_, rfl, Config.lt_two_pow_lenW hb.txLen⟩
  case rxTrigEn => exact ⟨_, rfl, s.rxTrigEn.toNat_lt⟩
  case txTrigEn => exact ⟨_, rfl, s.txTrigEn.toNat_lt⟩

end Machine
end Sys2Proof
end

section
/-! SUPPORT. Where a guard is false (`00_scope.md` R13): the word is refused by name, and the turn is skipped. -/

namespace Sys2Proof.Machine

/-! ### The service choice -/

theorem State.serviceChoice_ne_asserted {s : State}
    (h : s.inited = false ∨ s.lock = true ∨ s.pendA = false ∨ (s.pendD = true ∧ s.linkPhase = .active)) :
    s.serviceChoice ≠ some .asserted := by
  intro hc
  obtain ⟨hi, hl, ⟨-, ha, hd⟩ | ⟨he, -⟩⟩ := State.serviceChoice_some hc
  · rcases h with h | h | h | ⟨hp, hx⟩
    · simp [h] at hi
    · simp [h] at hl
    · simp [h] at ha
    · simp [hd hp] at hx
  · cases he

theorem State.serviceChoice_ne_deasserted {s : State}
    (h : s.inited = false ∨ s.lock = true ∨ s.pendD = false ∨ (s.pendA = true ∧ s.linkPhase = .idle)) :
    s.serviceChoice ≠ some .deasserted := by
  intro hc
  obtain ⟨hi, hl, ⟨he, -⟩ | ⟨-, hd, ha⟩⟩ := State.serviceChoice_some hc
  · cases he
  · rcases h with h | h | h | ⟨hp, hx⟩
    · simp [h] at hi
    · simp [h] at hl
    · simp [h] at hd
    · simp [ha hp] at hx

theorem State.serviceChoice_eq_none {s : State}
    (h : s.inited = false ∨ s.lock = true ∨ (s.pendA = false ∧ s.pendD = false)) :
    s.serviceChoice = none := by
  cases hc : s.serviceChoice with
  | none => rfl
  | some e =>
    cases e with
    | asserted => exact absurd hc (State.serviceChoice_ne_asserted (by tauto))
    | deasserted => exact absurd hc (State.serviceChoice_ne_deasserted (by tauto))

/-! ### Words -/

theorem exec_xdAcquire_refused {s : State} (h : s.lock = true) :
    exec .xdAcquire s = .refused (.notEnabled "XD_ACQUIRE") := if_pos h

theorem exec_xdRelease_refused {s : State} (h : s.lock = false) :
    exec .xdRelease s = .refused (.notEnabled "XD_RELEASE") := by simp [exec, execXdRelease, h]

theorem exec_enqueue_refused {s : State} (h : s.lock = false) :
    exec .enqueue s = .refused (.notEnabled "ENQUEUE") := by simp [exec, execEnqueue, h]

theorem exec_dequeue_refused {s : State} (h : s.lock = false) :
    exec .dequeue s = .refused (.notEnabled "DEQUEUE") := by simp [exec, execDequeue, h]

theorem exec_tryReserveOut_refused {s : State} (h : s.lock = false) :
    exec .tryReserveOut s = .refused (.notEnabled "TRY_RESERVE_OUT") := by simp [exec, execTryReserveOut, h]

theorem exec_advanceIn_refused {s : State} (h : s.lock = false) :
    exec .advanceIn s = .refused (.notEnabled "ADVANCE_IN") := by simp [exec, execAdvanceIn, h]

theorem exec_rearm_refused {s : State} (h : ¬ (s.lock = false ∧ s.inited = true)) :
    exec .rearm s = .refused (.notEnabled "REARM") := if_neg h

theorem exec_init_refused_held {s : State} (h₁ : s.inited = false) (h₂ : s.hseq = .held) :
    exec .init s = .refused (.notEnabled "INIT") := by simp [exec, execInit, h₁, h₂]

theorem exec_selAssert_refused {s : State} (h : s.serviceChoice ≠ some .asserted) :
    exec .selAssert s = .refused (.notEnabled "SEL_ASSERT") := if_neg h

theorem exec_selDeassert_refused {s : State} (h : s.serviceChoice ≠ some .deasserted) :
    exec .selDeassert s = .refused (.notEnabled "SEL_DEASSERT") := if_neg h

theorem exec_submit_refused_locked {s : State} (h₁ : s.hseq = .idle) (h₂ : s.inited = true)
    (h₃ : s.lock = true) : exec .submit s = .refused (.notEnabled "SUBMIT") := by
  simp [exec, execSubmit, h₁, h₂, h₃]

theorem exec_submit_refused_held {s : State} (h₁ : s.hseq = .held)
    (h₂ : s.hcmd.op ≠ .submit ∨ s.lock = false) :
    exec .submit s = .refused (.notEnabled "SUBMIT") := by
  rcases h₂ with h₂ | h₂ <;> simp [exec, execSubmit, h₁, h₂]

theorem exec_receive_refused_locked {s : State} (h₁ : s.hseq = .idle) (h₂ : s.inited = true)
    (h₃ : s.lock = true) : exec .receive s = .refused (.notEnabled "RECEIVE") := by
  simp [exec, execReceive, h₁, h₂, h₃]

theorem exec_receive_refused_held {s : State} (h₁ : s.hseq = .held)
    (h₂ : s.hcmd.op ≠ .receive ∨ s.lock = false) :
    exec .receive s = .refused (.notEnabled "RECEIVE") := by
  rcases h₂ with h₂ | h₂ <;> simp [exec, execReceive, h₁, h₂]

/-- Settles O35, guard by guard. -/
theorem guardsRefuseIssuedWords : Obligations.GuardsRefuseIssuedWords := by
  intro s
  refine ⟨fun hl => ⟨exec_xdAcquire_refused hl, exec_rearm_refused (by simp [hl])⟩,
    fun hl => ⟨exec_xdRelease_refused hl, exec_enqueue_refused hl, exec_dequeue_refused hl,
      exec_tryReserveOut_refused hl, exec_advanceIn_refused hl⟩,
    fun hi => ⟨exec_rearm_refused (by simp [hi]), exec_init_refused_held hi⟩,
    fun h => exec_selAssert_refused (State.serviceChoice_ne_asserted h),
    fun h => exec_selDeassert_refused (State.serviceChoice_ne_deasserted h), ?_, ?_⟩
  · rintro (⟨hq, hi, hl⟩ | ⟨hq, hg⟩)
    · exact exec_submit_refused_locked hq hi hl
    · exact exec_submit_refused_held hq hg
  · rintro (⟨hq, hi, hl⟩ | ⟨hq, hg⟩)
    · exact exec_receive_refused_locked hq hi hl
    · exact exec_receive_refused_held hq hg

/-! ### Turns -/

theorem bodyTurn_idle (d : List (List EnvStep)) {s : State} (h : s.hseq = .idle) :
    bodyTurn d s = .next s := by
  simp [bodyTurn, State.bodyEnabled, h]

theorem serviceTurn_of_none {s : State} (h : s.serviceChoice = none) : serviceTurn s = .next s := by
  simp only [serviceTurn, h]

theorem State.masterXchg_deasserted (m : Byte) {s : State} (h : s.sel = false) : s.masterXchg m = s := by
  simp [State.masterXchg, h]

theorem State.engineTx_disabled {s : State}
    (h : s.txTrigEn = false ∨ s.txRemain = 0 ∨ s.cfg.txqDepth ≤ s.txq.length) : s.engineTx = .ok s := by
  have hr : ¬ s.txReady = true := by
    simp only [State.txReady, Bool.and_eq_true, decide_eq_true_eq]
    rintro ⟨⟨he, hn⟩, hd⟩
    rcases h with h | h | h
    · simp [h] at he
    · omega
    · omega
  exact if_neg hr

theorem State.engineRx_disabled {s : State} (h : s.rxTrigEn = false ∨ s.rxRemain = 0 ∨ s.rxq = []) :
    s.engineRx = .ok s := by
  have hr : ¬ s.rxReady = true := by
    simp only [State.rxReady, State.rxqEmpty, Bool.and_eq_true, decide_eq_true_eq]
    rintro ⟨⟨he, hn⟩, hd⟩
    rcases h with h | h | h
    · simp [h] at he
    · omega
    · simp [h] at hd
  exact if_neg hr

/-- A step outside the block that changes nothing leaves the schedule moved on and nothing else. -/
theorem step_env_unchanged {s : State} {e : EnvStep} {rest : List Turn} (h : s.sched = .env e :: rest)
    (he : envStep e (s.begin rest) = .ok (s.begin rest)) : step s = .next (s.begin rest) := by
  rw [step_turn h, runTurn, he]; rfl

/-- Settles O36: each disabled turn leaves the state as the step's beginning (`State.begin`) made it. -/
theorem disabledTurnsChangeNothing : Obligations.DisabledTurnsChangeNothing := by
  intro s rest
  refine ⟨fun d hs hq => ?body, fun hs hg => ?service, fun m hs hl => ?xchg, fun hs hg => ?tx,
    fun hs hg => ?rx⟩
  case body => rw [step_turn hs]; exact bodyTurn_idle d hq
  case service =>
    rw [step_turn hs]
    exact serviceTurn_of_none (State.serviceChoice_eq_none (s := s.begin rest) hg)
  case xchg =>
    exact step_env_unchanged hs (congrArg Except.ok (State.masterXchg_deasserted (s := s.begin rest) m hl))
  case tx => exact step_env_unchanged hs (State.engineTx_disabled (s := s.begin rest) hg)
  case rx => exact step_env_unchanged hs (State.engineRx_disabled (s := s.begin rest) hg)

end Sys2Proof.Machine
end

section
/-! SUPPORT. The values of reset (`10_state.md` R42), and the invariant there. -/

namespace Sys2Proof.Machine

/-- Settles O57: every value of R42 is the one `State.resetOf` names, and the zero frame reads as zeros in every state
(R63). -/
theorem resetValues : Obligations.ResetValues := by
  intro c
  refine ⟨rfl, rfl, rfl, rfl, rfl, rfl, rfl, rfl, rfl, rfl, rfl, rfl, rfl, rfl, fun k hk => ?_⟩
  exact State.readByte_zero (decide_eq_true ⟨Nat.le_add_right .., Nat.add_lt_add_left hk _⟩)

/-- The rings are empty, nothing is pending, held or enabled, and no byte is listed. -/
theorem State.inv_resetOf {c : Config} (hc : c.wf = true) : (State.resetOf c).Inv where
  cfg := hc
  rings := ⟨Nat.zero_le _, Nat.zero_le _, (Config.wf_bounds hc).2.1, (Config.wf_bounds hc).2.1⟩
  bindings := nofun
  host := ⟨nofun, nofun, nofun, List.length_replicate, List.length_replicate, .inl rfl⟩
  quiet _ := ⟨rfl, rfl, rfl, rfl, rfl⟩
  phase := nofun
  queues := ⟨Nat.zero_le _, Nat.zero_le _⟩
  memory := ⟨.nil, nofun⟩
  widths := ⟨Nat.two_pow_pos _, Nat.two_pow_pos _, Nat.zero_le _, Nat.zero_le _⟩
  agents := nofun

/-- Settles O43: reset of any legal parameters, the reference ones among them. -/
theorem resetMeetsInvariant : Obligations.ResetMeetsInvariant :=
  ⟨fun _ hc => State.inv_resetOf hc, State.inv_resetOf (by decide)⟩

end Sys2Proof.Machine
end

section
/-! SUPPORT. The invariant (`Safety.lean`, `State.Inv`) under an update of State, part by part, and after `rst`
(`70_reset_and_hazards.md` R240). -/

namespace Sys2Proof.Machine

/-- The rule for an update of State: only the parts of the invariant that read a changed field are to be shown; the
others carry over, their fields being the same. -/
theorem State.Inv.update {s t : State} (h : s.Inv)
    (cfg : s.cfg.wf = true → t.cfg.wf = true := by exact fun h => h)
    (rings : s.RingsOk → t.RingsOk := by exact fun ⟨a, b, c, d⟩ => ⟨a, b, c, d⟩)
    (bindings : (s.inited = true → s.BindingsOk) → t.inited = true → t.BindingsOk := by
      exact fun h hi => let ⟨a, b, c, d, e, f⟩ := h hi; ⟨a, b, c, d, e, f⟩)
    (host : s.HostOk → t.HostOk := by exact fun ⟨a, b, c, d, e, f⟩ => ⟨a, b, c, d, e, f⟩)
    (quiet : (s.inited = false → s.QuietBeforeInit) → t.inited = false → t.QuietBeforeInit := by
      exact fun h hi => let ⟨a, b, c, d, e⟩ := h hi; ⟨a, b, c, d, e⟩)
    (phase : (s.inited = true → s.linkPhase = LinkPhase.ofLevel s.sel) →
      t.inited = true → t.linkPhase = LinkPhase.ofLevel t.sel := by exact fun h => h)
    (queues : s.QueuesOk → t.QueuesOk := by exact fun ⟨a, b⟩ => ⟨a, b⟩)
    (memory : s.MemoryOk → t.MemoryOk := by exact fun ⟨a, b⟩ => ⟨a, b⟩)
    (widths : s.WidthsOk → t.WidthsOk := by exact fun ⟨a, b, c, d⟩ => ⟨a, b, c, d⟩)
    (agents : (∀ u ∈ s.sched, u.isAgents = true) → ∀ u ∈ t.sched, u.isAgents = true := by exact fun h => h) :
    t.Inv :=
  ⟨cfg h.cfg, rings h.rings, bindings h.bindings, host h.host, quiet h.quiet, phase h.phase, queues h.queues,
    memory h.memory, widths h.widths, agents h.agents⟩

/-- R240, R242: the block is as after reset; the queues, the result outputs and the schedule stay. -/
theorem State.Inv.afterRst {s : State} (h : s.Inv) : s.afterRst.Inv :=
  (State.inv_resetOf h.cfg).update
    (host := fun _ => ⟨nofun, nofun, nofun, List.length_replicate, h.host.respFrame, h.host.respSize⟩)
    (bindings := fun _ => nofun)
    (phase := fun _ => nofun)
    (queues := fun _ => ⟨h.queues.rxq, h.queues.txq⟩)
    (agents := fun _ => h.agents)

end Sys2Proof.Machine
end

section
/-! SUPPORT. The invariant under the steps of the agents outside the block (`45_environment.md`) and under a frame copy
with such steps inside it (`20_memory.md` R79). -/

namespace Sys2Proof.Machine

/-- The line changes: the registered copy follows it once initialised, and before that nothing is latched (R146,
R157). -/
theorem State.Inv.masterSel {s : State} (h : s.Inv) (v : Bool) : (s.masterSel v).Inv := by
  rw [State.masterSel, State.detect_eq]
  refine h.update (quiet := fun hq hi => ?_) (phase := fun _ hi => ?_)
  · obtain ⟨hp, ha, hd, hr, ht⟩ := hq hi
    have hi : s.inited = false := hi
    constructor <;> simp [State.edgeSeen, hi, hp, ha, hd, hr, ht]
  · have hi : s.inited = true := hi
    by_cases hv : LinkPhase.ofLevel v = s.linkPhase <;> simp [State.edgeSeen, State.inSel, hi, hv]

/-- The receive queue grows only below its depth (R192, R198). -/
theorem State.Inv.masterXchg {s : State} (h : s.Inv) (m : Byte) : (s.masterXchg m).Inv := by
  unfold State.masterXchg
  split
  · refine h.update (queues := fun hq => ⟨?_, ?_⟩)
    · dsimp only
      split
      · simpa
      · exact hq.rxq
    · simpa using hq.txq.trans (Nat.le_succ _)
  · exact h

/-- The TX channel appends only below the depth of its queue, and its count falls (R193, R199). -/
theorem State.Inv.engineTx {s t : State} (h : s.Inv) (ht : s.engineTx = .ok t) : t.Inv := by
  unfold State.engineTx at ht
  split at ht
  · next hr =>
    split at ht
    · cases ht
    · cases ht
      simp only [State.txReady, Bool.and_eq_true, decide_eq_true_eq] at hr
      refine h.update (queues := fun hq => ⟨hq.rxq, by simpa using hr.2⟩) (bindings := fun hb hi => ?_)
      obtain ⟨hrl, htl, hra, hta, hrr, htr⟩ := hb hi
      exact ⟨hrl, htl, hra, hta, hrr, (Nat.sub_le ..).trans htr⟩
  · cases ht; exact h

/-- A store inside a ring changes a byte the invariant allows to be listed. -/
theorem State.Inv.storeByte {s t : State} {a : Nat} {b : Byte} (h : s.Inv)
    (ha : s.cfg.inOut a = true ∨ s.cfg.inIn a = true) (ht : s.storeByte a b = .ok t) : t.Inv := by
  rw [(State.storeByte_ok ht).1]
  refine h.update (memory := fun hm => ⟨Memory.write_wf a b hm.canonical, fun c hc => ?_⟩)
  rcases Memory.mem_write hc with hc | hc
  · rw [hc]; exact ha
  · exact hm.inRings c hc

/-- The byte the RX channel writes next lies in the slot it is bound to, so in `IN` (R194, R32). -/
theorem State.Inv.rxTarget_inIn {s : State} (h : s.Inv) (hr : s.rxReady = true) :
    s.cfg.inIn (s.rxAddr + (s.rxLen - s.rxRemain)) = true := by
  simp only [State.rxReady, Bool.and_eq_true, decide_eq_true_eq] at hr
  obtain ⟨⟨hen, hpos⟩, -⟩ := hr
  have hi : s.inited = true := by
    by_contra hi
    simp [(h.quiet (by simpa using hi)).rxTrigEn] at hen
  have hb := h.bindings hi
  rw [hb.rxAddr, hb.rxLen]
  exact inSlot_inIn h.rings.inCursor (Nat.sub_lt (Config.wf_bounds h.cfg).1 hpos)

/-- The RX channel takes a byte from its queue and stores it in the bound slot (R194). -/
theorem State.Inv.engineRx {s t : State} (h : s.Inv) (ht : s.engineRx = .ok t) : t.Inv := by
  unfold State.engineRx at ht
  split at ht
  · next hr =>
    split at ht
    · cases ht; exact h
    · next b rest hq =>
      split at ht
      · cases ht
      · next u hu =>
        cases ht
        have hui := h.storeByte (.inr (h.rxTarget_inIn hr)) hu
        have hrest : rest.length ≤ u.cfg.rxqDepth := by
          have := h.queues.rxq
          rw [(State.envKeeps_storeByte hu).cfg]
          simp only [hq, List.length_cons] at this
          omega
        refine hui.update (queues := fun hq => ⟨hrest, hq.txq⟩) (bindings := fun hb hi => ?_)
        obtain ⟨hrl, htl, hra, hta, hrr, htr⟩ := hb hi
        exact ⟨hrl, htl, hra, hta, (Nat.sub_le ..).trans hrr, htr⟩
  · cases ht; exact h

theorem State.Inv.envStep {s t : State} (h : s.Inv) {e : EnvStep} (ht : envStep e s = .ok t) : t.Inv := by
  cases e with
  | sel v => cases ht; exact h.masterSel v
  | pin l => cases ht; exact h.masterSel _
  | xchg m => cases ht; exact h.masterXchg m
  | txByte => exact h.engineTx ht
  | rxByte => exact h.engineRx ht

theorem State.Inv.envSteps {s t : State} (h : s.Inv) {es : List EnvStep} (ht : envSteps es s = .ok t) :
    t.Inv := by
  induction es generalizing s with
  | nil => cases ht; exact h
  | cons e es ih =>
    simp only [Machine.envSteps] at ht
    split at ht
    · cases ht
    · next he => exact ih (h.envStep he) ht

/-- A copy into a slot of `OUT`, whatever other agents do inside it. -/
theorem State.Inv.copyIn {s t : State} (h : s.Inv) {a : Nat} {f : Frame} {d : List (List EnvStep)}
    (ha : ∀ k, k < f.length → s.cfg.inOut (a + k) = true) (ht : copyIn a f d s = .ok t) : t.Inv := by
  induction f generalizing a d s with
  | nil => exact h.envSteps ht
  | cons b f ih =>
    simp only [Machine.copyIn] at ht
    split at ht
    · cases ht
    · next s₁ h₁ =>
      split at ht
      · cases ht
      · next s₂ h₂ =>
        have hc₁ := (envSteps_keeps h₁).cfg
        have hc₂ := (State.envKeeps_storeByte h₂).cfg
        have ha₀ : s₁.cfg.inOut a = true := hc₁ ▸ ha 0 (Nat.zero_lt_succ _)
        refine ih ((h.envSteps h₁).storeByte (.inl ha₀) h₂) (fun k hk => ?_) ht
        rw [hc₂, hc₁, Nat.add_assoc, Nat.add_comm 1]
        exact ha (k + 1) (Nat.succ_lt_succ hk)

/-- A copy out stores nothing itself. -/
theorem State.Inv.copyOut {s t : State} (h : s.Inv) {a n : Nat} {f : Frame} {d : List (List EnvStep)}
    (ht : copyOut a n d s = .ok (t, f)) : t.Inv := by
  induction n generalizing a d s t f with
  | zero =>
    simp only [Machine.copyOut] at ht
    split at ht
    · cases ht
    · next h₁ => cases ht; exact h.envSteps h₁
  | succ n ih =>
    simp only [Machine.copyOut] at ht
    split at ht
    · cases ht
    · next h₁ =>
      split at ht
      · cases ht
      · split at ht
        · cases ht
        · next h₃ => cases ht; exact ih (h.envSteps h₁) h₃

end Sys2Proof.Machine
end

section
/-! SUPPORT. The invariant under the shared operations of the block, under every operation of format `HOST` or `EVENT`
(`30_encoding.md` R92), and under every step of the agents. -/

namespace Sys2Proof.Machine

/-! ### Addresses of the bindings -/

theorem nextSlot_lt {c : Config} (h : c.wf = true) (x : Nat) : nextSlot c x < c.capacity :=
  Nat.mod_lt _ (Config.wf_bounds h).2.1

theorem inSlotAddr_lt {c : Config} (h : c.wf = true) {i : Nat} (hi : i < c.capacity) :
    slotAddr c c.inBase i < 2 ^ c.addrW :=
  (inIn_exists h (inSlot_inIn (k := 0) hi (Config.wf_bounds h).1)).1

theorem outSlotAddr_lt {c : Config} (h : c.wf = true) {i : Nat} (hi : i < c.capacity) :
    slotAddr c c.outBase i < 2 ^ c.addrW :=
  (inOut_exists h (outSlot_inOut (k := 0) hi (Config.wf_bounds h).1)).1

theorem zeroBase_lt {c : Config} (h : c.wf = true) : c.zeroBase < 2 ^ c.addrW := by
  obtain ⟨hf, _, _, _, _, _, hz, _⟩ := Config.wf_bounds h
  omega

/-- R27: the slot before the one the cursor has moved on to is the one it came from. -/
theorem nextSlot_add_capacity_sub_one {c : Config} {x : Nat} (h : x < c.capacity) :
    (nextSlot c x + c.capacity - 1) % c.capacity = x := by
  unfold nextSlot
  rcases Nat.lt_or_ge (x + 1) c.capacity with hx | hx
  · rw [Nat.mod_eq_of_lt hx, show x + 1 + c.capacity - 1 = x + c.capacity by omega, Nat.add_mod_right,
      Nat.mod_eq_of_lt h]
  · obtain rfl : x = c.capacity - 1 := by omega
    rw [Nat.sub_add_cancel (by omega), Nat.mod_self, Nat.zero_add, Nat.mod_eq_of_lt h]

/-! ### The shared operations -/

/-- The turn's preparation: nothing the invariant reads but the schedule changes. -/
theorem State.Inv.prepared {s u : State} (h : s.Inv) (hu : s.Prepared u)
    (ha : ∀ t ∈ u.sched, t.isAgents = true) : u.Inv := by
  obtain ⟨w, f, d, c, r, rfl⟩ := hu
  exact h.update (agents := fun _ => ha)

theorem State.Inv.raise {s : State} (h : s.Inv) (c : Condition) : (State.raise c s).Inv := h.update

theorem State.Inv.setOutCount {s : State} (h : s.Inv) {n : Nat} (hn : n ≤ s.cfg.capacity) :
    State.Inv { s with outCount := n } :=
  h.update (rings := fun hr => ⟨hn, hr.inCount, hr.outCursor, hr.inCursor⟩)

theorem State.Inv.setInCount {s : State} (h : s.Inv) {n : Nat} (hn : n ≤ s.cfg.capacity) :
    State.Inv { s with inCount := n } :=
  h.update (rings := fun hr => ⟨hr.outCount, hn, hr.outCursor, hr.inCursor⟩)

theorem State.Inv.hostAcquire {s : State} (h : s.Inv) (hi : s.inited = true) {c : HostCmd}
    (hc : c.frame.length = s.cfg.frameSize) : (State.hostAcquire c s).Inv :=
  h.update (host := fun hh => ⟨fun _ => rfl, fun _ => rfl, fun _ => hi, hc, hh.respFrame, hh.respSize⟩)

theorem State.Inv.hostRelease {s : State} (h : s.Inv) : s.hostRelease.Inv :=
  h.update (host := fun hh => ⟨nofun, nofun, nofun, hh.frame, hh.respFrame, hh.respSize⟩)

theorem State.Inv.respond {s : State} (h : s.Inv) {r : Option Frame}
    (hr : ∀ f, r = some f → f.length = s.cfg.frameSize) : (State.respond r s).Inv := by
  cases r with
  | none =>
    exact h.update (host := fun ⟨held_lock, lock_held, inited, frame, respFrame, _⟩ =>
      ⟨held_lock, lock_held, inited, frame, respFrame, .inl rfl⟩)
  | some f =>
    exact h.update (host := fun ⟨held_lock, lock_held, inited, frame, _, _⟩ =>
      ⟨held_lock, lock_held, inited, frame, hr f rfl, .inr rfl⟩)

/-- A full ring drops the frame; otherwise the frame goes into a slot of `OUT` and is counted (R111). -/
theorem State.Inv.enqueue {s t : State} {f : Frame} {ok : Bool} (h : s.Inv)
    (hf : f.length = s.cfg.frameSize) (ht : s.enqueue f = .ok (t, ok)) : t.Inv := by
  have h₀ : State.Inv { s with during := [] } := h.update
  rcases State.enqueue_ok ht with ⟨-, -, rfl⟩ | ⟨hc, -, u, hu, hk, rfl⟩
  · exact h₀.raise _
  · have hslot : s.enqueueSlot < s.cfg.capacity := Nat.mod_lt _ (Config.wf_bounds h.cfg).2.1
    have hui : u.Inv := h₀.copyIn (fun k hk => outSlot_inOut hslot (hf ▸ hk)) hu
    refine hui.setOutCount ?_
    rw [hk.cfg]
    exact Nat.lt_of_le_of_ne h.rings.outCount hc

/-- An empty ring gives nothing; otherwise a frame is copied out and no longer counted (R112). -/
theorem State.Inv.dequeue {s t : State} {r : Option Frame} (h : s.Inv) (ht : s.dequeue = .ok (t, r)) :
    t.Inv := by
  have h₀ : State.Inv { s with during := [] } := h.update
  rcases State.dequeue_ok ht with ⟨-, -, rfl⟩ | ⟨-, u, f, hu, hk, -, -, rfl⟩
  · exact h₀.raise _
  · refine (h₀.copyOut hu).setInCount ?_
    rw [hk.cfg]
    exact (Nat.sub_le ..).trans h.rings.inCount

theorem State.dequeue_length {s t : State} {r : Option Frame} (ht : s.dequeue = .ok (t, r)) {f : Frame}
    (hf : r = some f) : f.length = s.cfg.frameSize := by
  rcases State.dequeue_ok ht with ⟨-, rfl, -⟩ | ⟨-, u, g, -, -, rfl, hl, -⟩
  · cases hf
  · cases hf; exact hl

/-- `INIT` makes both rings empty and both bindings those of R165. -/
theorem State.Inv.initialised {s : State} (h : s.Inv) : s.initialised.Inv := by
  have hcap := (Config.wf_bounds h.cfg).2.1
  rw [State.initialised_eq]
  refine h.update
    (rings := fun _ => ⟨Nat.zero_le _, Nat.zero_le _, hcap, hcap⟩)
    (bindings := fun _ _ => ⟨rfl, rfl, ?rxAddr, .inl rfl, le_rfl, le_rfl⟩)
    (host := fun hh => ⟨hh.held_lock, hh.lock_held, fun _ => rfl, hh.frame, hh.respFrame, hh.respSize⟩)
    (quiet := fun _ => nofun)
    (phase := fun _ _ => rfl)
    (widths := fun _ => ⟨?rxWidth, zeroBase_lt h.cfg, le_rfl, le_rfl⟩)
  case rxAddr => simp [slotAddr]
  case rxWidth => simpa [slotAddr] using inSlotAddr_lt h.cfg hcap

/-- The pending bits and the enables are free once the block is initialised. -/
theorem State.Inv.takeEvent {s : State} (h : s.Inv) (hi : s.inited = true) (e : Edge) :
    (State.takeEvent e s).Inv := by
  rw [State.takeEvent_eq]
  exact h.update (quiet := fun _ hn => absurd (hi.symm.trans hn) nofun)

theorem State.Inv.setTrig {s : State} (h : s.Inv) (hi : s.inited = true) (t r : Bool) :
    (State.setTrig t r s).Inv :=
  h.update (quiet := fun _ hn => absurd (hi.symm.trans hn) nofun)

theorem State.Inv.haltEngine {s : State} (h : s.Inv) : s.haltEngine.Inv :=
  h.update
    (bindings := fun hb hi =>
      let ⟨hrl, htl, hra, hta, _, _⟩ := hb hi
      ⟨hrl, htl, hra, hta, Nat.zero_le _, Nat.zero_le _⟩)
    (quiet := fun hq hi =>
      let ⟨hp, ha, hd, _, _⟩ := hq hi
      ⟨hp, ha, hd, rfl, rfl⟩)

theorem State.Inv.drainRxq {s : State} (h : s.Inv) : s.drainRxq.Inv :=
  h.update (queues := fun hq => ⟨Nat.zero_le _, hq.txq⟩)

/-- `REARM` binds the RX channel to the slot of the new cursor, and the TX channel to the slot the outbound cursor has
just left or to the zero frame (R130 to R132). -/
theorem State.Inv.rearm {s : State} (h : s.Inv) (hl : s.lock = false) : s.rearm.Inv := by
  obtain ⟨hout, hin, hoc, hic⟩ := h.rings
  have hnext := nextSlot_lt h.cfg
  rw [State.rearm_eq]
  refine h.update
    (rings := fun _ => ⟨?outCount, ?inCount, ?outCursor, hnext _⟩)
    (bindings := fun _ _ => ⟨rfl, rfl, rfl, ?txAddr, le_rfl, le_rfl⟩)
    (host := fun hh => ⟨fun hq => absurd (hl.symm.trans (hh.held_lock hq)) nofun, nofun,
      hh.held_inited, hh.frame, hh.respFrame, hh.respSize⟩)
    (widths := fun _ => ⟨inSlotAddr_lt h.cfg (hnext _), ?txWidth, le_rfl, le_rfl⟩)
  case outCount => dsimp only; split <;> omega
  case inCount => dsimp only; split <;> omega
  case outCursor =>
    dsimp only
    split
    · exact hnext _
    · exact hoc
  case txAddr =>
    by_cases hc : 0 < s.outCount
    · exact .inr (by simp [State.boundTxSlot, hc, nextSlot_add_capacity_sub_one hoc])
    · exact .inl (if_neg hc)
  case txWidth =>
    dsimp only
    split
    · exact outSlotAddr_lt h.cfg hoc
    · exact zeroBase_lt h.cfg

theorem State.Inv.handleAssert {s : State} (h : s.Inv) (hi : s.inited = true) : s.handleAssert.Inv := by
  unfold State.handleAssert
  split
  · exact h.setTrig hi _ _
  · exact (h.raise _).setTrig hi _ _

theorem State.Inv.handleDeassert {s : State} (h : s.Inv) (hi : s.inited = true) (hl : s.lock = false) :
    s.handleDeassert.Inv :=
  (h.haltEngine.drainRxq.rearm hl).setTrig (by rw [State.rearm_eq]; exact hi) _ _

/-! ### The operations and the turns -/

/-- `MICRO` words alone can leave the domain held with no host operation in progress; every other operation keeps the
invariant. -/
theorem State.Inv.exec {s t : State} (h : s.Inv) {i : Instr} (hi : i.format ≠ .micro)
    (ht : exec i s = .next t) : t.Inv := by
  cases i with
  | init => obtain ⟨-, -, rfl⟩ := exec_init_next ht; exact h.initialised
  | submit =>
    rcases exec_submit_next ht with ⟨-, hs, -, rfl⟩ | ⟨-, -, -, u, ok, hu, rfl⟩
    · exact h.hostAcquire hs (length_portFrame _ _)
    · exact (h.enqueue h.host.frame hu).hostRelease
  | receive =>
    rcases exec_receive_next ht with ⟨-, hs, -, rfl⟩ | ⟨-, -, -, u, r, hu, rfl⟩
    · exact h.hostAcquire hs h.host.frame
    · refine ((h.dequeue hu).respond fun f hf => ?_).hostRelease
      rw [State.dequeue_cfg hu]; exact State.dequeue_length hu hf
  | selAssert =>
    obtain ⟨hc, rfl⟩ := exec_selAssert_next ht
    obtain ⟨hs, -, -⟩ := State.serviceChoice_some hc
    exact (h.takeEvent hs _).handleAssert hs
  | selDeassert =>
    obtain ⟨hc, rfl⟩ := exec_selDeassert_next ht
    obtain ⟨hs, hl, -⟩ := State.serviceChoice_some hc
    exact (h.takeEvent hs _).handleDeassert hs hl
  | _ => exact absurd rfl hi

theorem Edge.instr_format_ne_micro (e : Edge) : e.instr.format ≠ .micro := by cases e <;> decide

theorem HostOp.instr_format_ne_micro (o : HostOp) : o.instr.format ≠ .micro := by cases o <;> decide

theorem State.Inv.acceptCommand {s t : State} (h : s.Inv) (ht : acceptCommand s = .next t) : t.Inv := by
  unfold Machine.acceptCommand at ht
  split at ht
  · cases ht
  · split at ht
    · next hf =>
      split at ht
      · exact h.exec (by rw [hf]; decide) ht
      · rw [presentWhileHeld_next ht]; exact h
    · cases ht

theorem State.Inv.present {s : State} (h : s.Inv) (w : OpWord) (f : Nat) : (s.present w f).Inv :=
  h.prepared (State.prepared_present w f s) h.agents

theorem State.Inv.bodyTurn {s t : State} (h : s.Inv) {d : List (List EnvStep)}
    (ht : bodyTurn d s = .next t) : t.Inv := by
  unfold Machine.bodyTurn at ht
  split at ht
  · exact (h.prepared ⟨_, _, d, _, _, rfl⟩ h.agents).exec (HostOp.instr_format_ne_micro _) ht
  · cases ht; exact h

theorem State.Inv.serviceTurn {s t : State} (h : s.Inv) (ht : serviceTurn s = .next t) : t.Inv := by
  unfold Machine.serviceTurn at ht
  split at ht
  · exact h.exec (Edge.instr_format_ne_micro _) ht
  · cases ht; exact h

/-- The command that waits for the service step is a turn of an agent too (R171). -/
theorem State.Inv.contendTurn {s t : State} (h : s.Inv) {w : OpWord} {f : Nat}
    (ht : contendTurn w f s = .next t) : t.Inv := by
  unfold Machine.contendTurn at ht
  split at ht
  · refine (h.prepared ⟨_, _, _, .cmd w f :: s.sched, _, rfl⟩ ?_).exec (Edge.instr_format_ne_micro _) ht
    exact List.forall_mem_cons.2 ⟨rfl, h.agents⟩
  · exact (h.present w f).acceptCommand ht

theorem State.Inv.idleTurn {s t : State} (h : s.Inv) (ht : idleTurn s = .next t) : t.Inv := by
  unfold Machine.idleTurn at ht
  split at ht
  · exact h.exec (Edge.instr_format_ne_micro _) ht
  · exact h.bodyTurn ht

theorem State.Inv.runTurn {s t : State} (h : s.Inv) {u : Turn} (hu : u.isAgents = true)
    (ht : runTurn u s = .next t) : t.Inv := by
  cases u with
  | cmd w f => exact (h.present w f).acceptCommand ht
  | body d => exact h.bodyTurn ht
  | service => exact h.serviceTurn ht
  | contend w f => exact h.contendTurn ht
  | env e => exact h.envStep (ok_of_finish_next ht)
  | rst => cases ht; exact h.afterRst
  | issue w => cases hu

/-- Settles O42: the schedule holds turns of the agents only, and each of them keeps the invariant. -/
theorem stepKeepsInvariant : Obligations.StepKeepsInvariant := by
  intro s t h ht
  cases hs : s.sched with
  | nil =>
    rw [step_idle hs] at ht
    exact (h.prepared (State.prepared_begin [] s) nofun).idleTurn ht
  | cons u c =>
    rw [step_turn hs] at ht
    obtain ⟨hu, hc⟩ := List.forall_mem_cons.1 (hs ▸ h.agents)
    exact (h.prepared (State.prepared_begin c s) hc).runTurn hu ht

end Sys2Proof.Machine
end

section
/-! SUPPORT. Which registers each shared operation and each operation writes (`10_state.md` R20, column "written by"),
the composites by way of their expansions (`30_encoding.md` R98). -/

namespace Sys2Proof.Machine

/-- `t` differs from `s` in no register outside `l`. -/
def State.WritesOnly (l : List Reg) (s t : State) : Prop := ∀ r, r ∉ l → t.reg r = s.reg r

theorem State.WritesOnly.trans {l m : List Reg} {s t u : State} (h₁ : s.WritesOnly l t)
    (h₂ : t.WritesOnly m u) : s.WritesOnly (l ++ m) u := by
  intro r hr
  rw [List.mem_append, not_or] at hr
  exact (h₂ r hr.2).trans (h₁ r hr.1)

theorem State.WritesOnly.mono {l m : List Reg} {s t : State} (h : s.WritesOnly l t) (hlm : l ⊆ m) :
    s.WritesOnly m t :=
  fun r hr => h r (fun hl => hr (hlm hl))

/-! ### The shared operations -/

theorem State.writesOnly_raise (c : Condition) (s : State) : s.WritesOnly [] (State.raise c s) := by
  intro r _; cases r <;> rfl

theorem State.writesOnly_withResult (x : MicroResult) (s : State) :
    s.WritesOnly [] (State.withResult x s) := by
  intro r _; cases r <;> rfl

theorem State.writesOnly_during (d : List (List EnvStep)) (s : State) :
    s.WritesOnly [] { s with during := d } := by
  intro r _; cases r <;> rfl

theorem State.writesOnly_mem (m : Memory) (s : State) : s.WritesOnly [] { s with mem := m } := by
  intro r _; cases r <;> rfl

theorem State.writesOnly_outCount (n : Nat) (s : State) : s.WritesOnly [.outCount] { s with outCount := n } := by
  intro r hr; cases r <;> simp at hr <;> rfl

theorem State.writesOnly_inCount (n : Nat) (s : State) : s.WritesOnly [.inCount] { s with inCount := n } := by
  intro r hr; cases r <;> simp at hr <;> rfl

theorem State.writesOnly_takeLock (s : State) : s.WritesOnly [.lock] s.takeLock := by
  intro r hr; cases r <;> simp at hr <;> rfl

theorem State.writesOnly_dropLock (s : State) : s.WritesOnly [.lock] s.dropLock := by
  intro r hr; cases r <;> simp at hr <;> rfl

theorem State.writesOnly_hostAcquire (c : HostCmd) (s : State) :
    s.WritesOnly [.lock, .hseq, .hcmd] (State.hostAcquire c s) := by
  intro r hr; cases r <;> simp at hr <;> rfl

theorem State.writesOnly_hostRelease (s : State) : s.WritesOnly [.lock, .hseq] s.hostRelease := by
  intro r hr; cases r <;> simp at hr <;> rfl

theorem State.writesOnly_respond (f : Option Frame) (s : State) : s.WritesOnly [] (State.respond f s) := by
  intro r _; cases f <;> cases r <;> rfl

theorem State.writesOnly_reserveOut (s : State) : s.WritesOnly [.outCursor, .outCount] s.reserveOut := by
  rw [State.reserveOut_eq]
  intro r hr; cases r <;> simp at hr <;> rfl

theorem State.writesOnly_advanceIn (s : State) : s.WritesOnly [.inCursor, .inCount] s.advanceIn := by
  rw [State.advanceIn_eq]
  intro r hr; cases r <;> simp at hr <;> rfl

theorem State.writesOnly_bindRx (a : Nat) (s : State) : s.WritesOnly [.rxAddr, .rxLen] (State.bindRx a s) := by
  intro r hr; cases r <;> simp at hr <;> rfl

theorem State.writesOnly_bindTx (a : Nat) (s : State) : s.WritesOnly [.txAddr, .txLen] (State.bindTx a s) := by
  intro r hr; cases r <;> simp at hr <;> rfl

theorem State.writesOnly_setTrig (a b : Bool) (s : State) :
    s.WritesOnly [.rxTrigEn, .txTrigEn] (State.setTrig a b s) := by
  intro r hr; cases r <;> simp at hr <;> rfl

theorem State.writesOnly_haltEngine (s : State) : s.WritesOnly [.rxTrigEn, .txTrigEn] s.haltEngine := by
  intro r hr; cases r <;> simp at hr <;> rfl

theorem State.writesOnly_drainRxq (s : State) : s.WritesOnly [] s.drainRxq := by
  intro r _; cases r <;> rfl

theorem State.writesOnly_takeAssert (s : State) : s.WritesOnly [.pendA] (State.takeEvent .asserted s) := by
  intro r hr; cases r <;> simp at hr <;> rfl

theorem State.writesOnly_takeDeassert (s : State) :
    s.WritesOnly [.pendD] (State.takeEvent .deasserted s) := by
  intro r hr; cases r <;> simp at hr <;> rfl

theorem State.writesOnly_initialised (s : State) : s.WritesOnly (Instr.mayWrite .init) s.initialised := by
  rw [State.initialised_eq]
  intro r hr; cases r <;> simp [Instr.mayWrite] at hr <;> rfl

/-- R98: acquire, `ADVANCE_IN` and its binding, `TRY_RESERVE_OUT` and its binding, release. -/
theorem State.writesOnly_rearm (s : State) : s.WritesOnly (Instr.mayWrite .rearm) s.rearm :=
  (s.writesOnly_takeLock.trans <| (State.writesOnly_advanceIn _).trans <|
    (State.writesOnly_bindRx _ _).trans <| (State.writesOnly_reserveOut _).trans <|
    (State.writesOnly_bindTx _ _).trans <| State.writesOnly_dropLock _).mono (by decide)

/-- R98: `SET_TRIG` alone, after its condition. -/
theorem State.writesOnly_handleAssert (s : State) :
    s.WritesOnly [.rxTrigEn, .txTrigEn] s.handleAssert := by
  unfold State.handleAssert
  split
  · exact s.writesOnly_setTrig true true
  · exact (s.writesOnly_raise _).trans (State.writesOnly_setTrig _ _ _)

/-- R98: `HALT_ENGINE`, `DRAIN_RXQ`, `REARM`, `SET_TRIG`. -/
theorem State.writesOnly_handleDeassert (s : State) :
    s.WritesOnly (Instr.mayWrite .rearm ++ [.rxTrigEn, .txTrigEn]) s.handleDeassert :=
  (s.writesOnly_haltEngine.trans <| (State.writesOnly_drainRxq _).trans <|
    (State.writesOnly_rearm _).trans <| State.writesOnly_setTrig true true _).mono (by decide)

/-! ### The frame copies -/

/-- The registers the detector may write inside a frame copy: none when no step of another agent is listed for it. -/
def copyWrites : List (List EnvStep) → List Reg
  | [] => []
  | _ :: _ => detectorRegs

theorem mem_copyWrites {r : Reg} {d : List (List EnvStep)} (h : r ∈ copyWrites d) :
    r ∈ detectorRegs ∧ d ≠ [] := by
  cases d with
  | nil => cases h
  | cons e d => exact ⟨h, nofun⟩

theorem State.EnvKeeps.writesOnly {s t : State} (h : s.EnvKeeps t) : s.WritesOnly detectorRegs t :=
  fun r hr => h.reg r (by simpa [detectorRegs] using hr)

/-- With nothing listed for the copy its stores alone happen. -/
theorem copyIn_nil_writesOnly {a : Nat} {f : Frame} {s t : State} (h : copyIn a f [] s = .ok t) :
    s.WritesOnly [] t := by
  induction f generalizing a s with
  | nil => cases h; exact fun _ _ => rfl
  | cons b f ih =>
    simp only [copyIn, List.headD_nil, List.tail_nil, envSteps] at h
    split at h
    · cases h
    · next s₂ h₂ =>
      obtain ⟨rfl, -, -⟩ := State.storeByte_ok h₂
      exact (s.writesOnly_mem _).trans (ih h)

theorem copyOut_nil_writesOnly {a n : Nat} {f : Frame} {s t : State} (h : copyOut a n [] s = .ok (t, f)) :
    s.WritesOnly [] t := by
  induction n generalizing a f t with
  | zero => cases h; exact fun _ _ => rfl
  | succ n ih =>
    simp only [copyOut, List.headD_nil, List.tail_nil, envSteps] at h
    split at h
    · cases h
    · split at h
      · cases h
      · next h₃ => cases h; exact ih h₃

theorem copyIn_writesOnly {a : Nat} {f : Frame} {d : List (List EnvStep)} {s t : State}
    (h : copyIn a f d s = .ok t) : s.WritesOnly (copyWrites d) t := by
  cases d with
  | nil => exact copyIn_nil_writesOnly h
  | cons e d => exact (copyIn_keeps h).writesOnly

theorem copyOut_writesOnly {a n : Nat} {f : Frame} {d : List (List EnvStep)} {s t : State}
    (h : copyOut a n d s = .ok (t, f)) : s.WritesOnly (copyWrites d) t := by
  cases d with
  | nil => exact copyOut_nil_writesOnly h
  | cons e d => exact (copyOut_keeps h).1.writesOnly

theorem State.writesOnly_enqueue {s t : State} {f : Frame} {ok : Bool} (h : s.enqueue f = .ok (t, ok)) :
    s.WritesOnly (copyWrites s.during ++ [.outCount]) t := by
  rcases State.enqueue_ok h with ⟨-, -, rfl⟩ | ⟨-, -, u, hu, -, rfl⟩
  · exact ((s.writesOnly_during []).trans (State.writesOnly_raise _ _)).mono (List.nil_subset _)
  · exact (s.writesOnly_during []).trans ((copyIn_writesOnly hu).trans (u.writesOnly_outCount _))

theorem State.writesOnly_dequeue {s t : State} {x : Option Frame} (h : s.dequeue = .ok (t, x)) :
    s.WritesOnly (copyWrites s.during ++ [.inCount]) t := by
  rcases State.dequeue_ok h with ⟨-, -, rfl⟩ | ⟨-, u, f, hu, -, -, -, rfl⟩
  · exact ((s.writesOnly_during []).trans (State.writesOnly_raise _ _)).mono (List.nil_subset _)
  · exact (s.writesOnly_during []).trans ((copyOut_writesOnly hu).trans (u.writesOnly_inCount _))

/-! ### The operations -/

/-- What follows the copy adds its own registers to those of the operation around it. -/
theorem State.WritesOnly.afterCopy {c l m n : List Reg} {s t u : State} (h₁ : s.WritesOnly (c ++ l) t)
    (h₂ : t.WritesOnly m u) (hn : l ++ m ⊆ n) : s.WritesOnly (c ++ n) u :=
  (h₁.trans h₂).mono <| by
    rw [List.append_assoc]
    exact List.append_subset.2
      ⟨List.subset_append_left .., List.Subset.trans hn (List.subset_append_right ..)⟩

theorem exec_writesOnly {i : Instr} {s t : State} (h : exec i s = .next t) :
    s.WritesOnly (copyWrites s.during ++ i.mayWrite) t := by
  have own {t : State} (hw : s.WritesOnly i.mayWrite t) :
      s.WritesOnly (copyWrites s.during ++ i.mayWrite) t := hw.mono (List.subset_append_right _ _)
  cases i with
  | init => obtain ⟨-, -, rfl⟩ := exec_init_next h; exact own s.writesOnly_initialised
  | submit =>
    rcases exec_submit_next h with ⟨-, -, -, rfl⟩ | ⟨-, -, -, u, ok, hu, rfl⟩
    · exact own ((s.writesOnly_hostAcquire _).mono (by decide))
    · exact (State.writesOnly_enqueue hu).afterCopy u.writesOnly_hostRelease (by decide)
  | receive =>
    rcases exec_receive_next h with ⟨-, -, -, rfl⟩ | ⟨-, -, -, u, x, hu, rfl⟩
    · exact own ((s.writesOnly_hostAcquire _).mono (by decide))
    · exact (State.writesOnly_dequeue hu).afterCopy
        ((u.writesOnly_respond x).trans (State.writesOnly_hostRelease _)) (by decide)
  | selAssert =>
    obtain ⟨-, rfl⟩ := exec_selAssert_next h
    exact own (s.writesOnly_takeAssert.trans (State.writesOnly_handleAssert _))
  | selDeassert =>
    obtain ⟨-, rfl⟩ := exec_selDeassert_next h
    exact own (s.writesOnly_takeDeassert.trans (State.writesOnly_handleDeassert _))
  | xdAcquire => obtain ⟨-, rfl⟩ := exec_xdAcquire_next h; exact own s.writesOnly_takeLock
  | xdRelease => obtain ⟨-, rfl⟩ := exec_xdRelease_next h; exact own s.writesOnly_dropLock
  | enqueue =>
    obtain ⟨-, u, ok, hu, rfl⟩ := exec_enqueue_next h
    exact (State.writesOnly_enqueue hu).afterCopy (u.writesOnly_withResult _) (by decide)
  | dequeue =>
    obtain ⟨-, u, x, hu, rfl⟩ := exec_dequeue_next h
    exact (State.writesOnly_dequeue hu).afterCopy (u.writesOnly_withResult _) (by decide)
  | tryReserveOut =>
    obtain ⟨-, rfl⟩ := exec_tryReserveOut_next h
    exact own (s.writesOnly_reserveOut.trans (State.writesOnly_withResult _ _))
  | advanceIn => obtain ⟨-, rfl⟩ := exec_advanceIn_next h; exact own s.writesOnly_advanceIn
  | rearm => obtain ⟨-, -, rfl⟩ := exec_rearm_next h; exact own s.writesOnly_rearm
  | haltEngine => rw [exec_haltEngine_next h]; exact own s.writesOnly_haltEngine
  | drainRxq => rw [exec_drainRxq_next h]; exact own s.writesOnly_drainRxq
  | setTrig a b => rw [exec_setTrig_next h]; exact own (s.writesOnly_setTrig a b)

/-- Settles O40: outside its own list an operation writes the detector's registers at most, and those only with steps
listed for its copy. -/
theorem onlyNamedOperationsWrite : Obligations.OnlyNamedOperationsWrite := by
  intro i s t r h hown hdet
  refine exec_writesOnly h r fun hr => ?_
  rcases List.mem_append.1 hr with hc | ho
  · obtain ⟨hd, hne⟩ := mem_copyWrites hc
    exact hne (hdet hd)
  · exact hown ho

end Sys2Proof.Machine
end

section
/-! SUPPORT. What a state's bytes depend on, and which operations leave every byte as it was (`20_memory.md` R60, R61,
R63). -/

namespace Sys2Proof.Machine

/-! ### States with the same bytes -/

/-- Everything a byte is read from (`State.readByte`) is the same in `t` as in `s`. -/
structure State.SameBytes (s t : State) : Prop where
  cfg : t.cfg = s.cfg
  mem : t.mem = s.mem
  epoch : t.epoch = s.epoch

theorem State.SameBytes.trans {s t u : State} (h₁ : s.SameBytes t) (h₂ : t.SameBytes u) : s.SameBytes u :=
  ⟨h₂.cfg.trans h₁.cfg, h₂.mem.trans h₁.mem, h₂.epoch.trans h₁.epoch⟩

theorem State.SameBytes.readByte {s t : State} (h : s.SameBytes t) (a : Nat) : t.readByte a = s.readByte a :=
  State.readByte_congr a h.cfg h.mem h.epoch

theorem State.SameBytes.readBytes {s t : State} (h : s.SameBytes t) (a n : Nat) :
    t.readBytes a n = s.readBytes a n :=
  State.readBytes_congr a n fun _ _ => h.readByte _

theorem State.sameBytes_reserveOut (s : State) : s.SameBytes s.reserveOut := by
  rw [State.reserveOut_eq]; exact ⟨rfl, rfl, rfl⟩

theorem State.sameBytes_advanceIn (s : State) : s.SameBytes s.advanceIn := by
  rw [State.advanceIn_eq]; exact ⟨rfl, rfl, rfl⟩

theorem State.sameBytes_rearm (s : State) : s.SameBytes s.rearm := by
  rw [State.rearm_eq]; exact ⟨rfl, rfl, rfl⟩

theorem State.sameBytes_takeEvent (e : Edge) (s : State) : s.SameBytes (State.takeEvent e s) := by
  rw [State.takeEvent_eq]; exact ⟨rfl, rfl, rfl⟩

theorem State.sameBytes_handleAssert (s : State) : s.SameBytes s.handleAssert := by
  rw [State.handleAssert_eq]; exact ⟨rfl, rfl, rfl⟩

theorem State.sameBytes_handleDeassert (s : State) : s.SameBytes s.handleDeassert := by
  rw [State.handleDeassert_eq]; exact ⟨rfl, rfl, rfl⟩

theorem State.sameBytes_initialised (s : State) : s.SameBytes s.initialised := by
  rw [State.initialised_eq]; exact ⟨rfl, rfl, rfl⟩

theorem State.sameBytes_respond (r : Option Frame) (s : State) : s.SameBytes (State.respond r s) := by
  cases r <;> exact ⟨rfl, rfl, rfl⟩

/-! ### The frame copies with nothing inside them -/

/-- A copy out reads and changes nothing. -/
theorem eq_of_copyOut_nil {a n : Nat} {s t : State} {f : Frame} (h : copyOut a n [] s = .ok (t, f)) : t = s := by
  induction n generalizing a f with
  | zero => cases h; rfl
  | succ n ih =>
    simp only [copyOut, List.headD_nil, List.tail_nil, envSteps] at h
    split at h
    · cases h
    · split at h
      · cases h
      · next h₃ => cases h; exact ih h₃

/-- A copy that meets no fault lays its bytes down and changes nothing else. -/
theorem eq_of_copyIn_nil {a : Nat} {f : Frame} {s t : State} (h : copyIn a f [] s = .ok t) :
    t = { s with mem := Memory.writeBytes s.mem a f } := by
  induction f generalizing a s with
  | nil => cases h; rfl
  | cons b f ih =>
    simp only [copyIn, List.headD_nil, List.tail_nil, envSteps] at h
    split at h
    · cases h
    · next h₂ =>
      obtain ⟨rfl, -, -⟩ := State.storeByte_ok h₂
      exact ih h

theorem State.sameBytes_dequeue {s t : State} {r : Option Frame} (hd : s.during = [])
    (h : s.dequeue = .ok (t, r)) : s.SameBytes t := by
  rcases State.dequeue_ok h with ⟨-, -, rfl⟩ | ⟨-, u, f, hu, -, -, -, rfl⟩
  · exact ⟨rfl, rfl, rfl⟩
  · rw [hd] at hu
    rw [eq_of_copyOut_nil hu]
    exact ⟨rfl, rfl, rfl⟩

/-- `ENQUEUE` writes inside `OUT` alone, in the slot it computes (R62). -/
theorem State.enqueue_readByte {s t : State} {f : Frame} {ok : Bool} (hd : s.during = [])
    (hcap : 0 < s.cfg.capacity) (hf : f.length = s.cfg.frameSize) (h : s.enqueue f = .ok (t, ok)) {a : Nat}
    (ha : s.cfg.inOut a = false) : t.readByte a = s.readByte a := by
  rcases State.enqueue_ok h with ⟨-, -, rfl⟩ | ⟨-, -, u, hu, -, rfl⟩
  · exact State.readByte_congr a rfl rfl rfl
  · rw [hd] at hu
    obtain rfl := eq_of_copyIn_nil hu
    have hout : a < slotAddr s.cfg s.cfg.outBase s.enqueueSlot ∨
        slotAddr s.cfg s.cfg.outBase s.enqueueSlot + f.length ≤ a := by
      by_contra hin
      obtain ⟨k, rfl⟩ := Nat.exists_eq_add_of_le (Nat.le_of_not_lt fun hlt => hin (.inl hlt))
      have := outSlot_inOut (c := s.cfg) (k := k) (Nat.mod_lt (s.outCursor + s.outCount) hcap) (by omega)
      exact absurd (this.symm.trans ha) nofun
    calc
      _ = State.readByte { s with mem := Memory.writeBytes s.mem _ f } a := State.readByte_congr a rfl rfl rfl
      _ = s.readByte a := State.readByte_writeBytes_other hout

/-! ### The operations -/

/-- Every operation but `ENQUEUE`, alone or inside `SUBMIT`, leaves every byte as it was. -/
theorem exec_sameBytes {i : Instr} {s t : State} (hd : s.during = []) (h : exec i s = .next t)
    (he : i ≠ .enqueue) (hs : i ≠ .submit) : s.SameBytes t := by
  cases i with
  | init => obtain ⟨-, -, rfl⟩ := exec_init_next h; exact s.sameBytes_initialised
  | submit => exact absurd rfl hs
  | receive =>
    rcases exec_receive_next h with ⟨-, -, -, rfl⟩ | ⟨-, -, -, u, r, hu, rfl⟩
    · exact ⟨rfl, rfl, rfl⟩
    · exact ((State.sameBytes_dequeue hd hu).trans (u.sameBytes_respond r)).trans ⟨rfl, rfl, rfl⟩
  | selAssert =>
    obtain ⟨-, rfl⟩ := exec_selAssert_next h
    exact (s.sameBytes_takeEvent _).trans (State.sameBytes_handleAssert _)
  | selDeassert =>
    obtain ⟨-, rfl⟩ := exec_selDeassert_next h
    exact (s.sameBytes_takeEvent _).trans (State.sameBytes_handleDeassert _)
  | xdAcquire => obtain ⟨-, rfl⟩ := exec_xdAcquire_next h; exact ⟨rfl, rfl, rfl⟩
  | xdRelease => obtain ⟨-, rfl⟩ := exec_xdRelease_next h; exact ⟨rfl, rfl, rfl⟩
  | enqueue => exact absurd rfl he
  | dequeue =>
    obtain ⟨-, u, r, hu, rfl⟩ := exec_dequeue_next h
    exact (State.sameBytes_dequeue hd hu).trans ⟨rfl, rfl, rfl⟩
  | tryReserveOut =>
    obtain ⟨-, rfl⟩ := exec_tryReserveOut_next h
    exact s.sameBytes_reserveOut.trans ⟨rfl, rfl, rfl⟩
  | advanceIn => obtain ⟨-, rfl⟩ := exec_advanceIn_next h; exact s.sameBytes_advanceIn
  | rearm => obtain ⟨-, -, rfl⟩ := exec_rearm_next h; exact s.sameBytes_rearm
  | haltEngine => rw [exec_haltEngine_next h]; exact ⟨rfl, rfl, rfl⟩
  | drainRxq => rw [exec_drainRxq_next h]; exact ⟨rfl, rfl, rfl⟩
  | setTrig a b => rw [exec_setTrig_next h]; exact ⟨rfl, rfl, rfl⟩

/-- Settles O39: only the two operations with an `ENQUEUE` in them can change a byte, and that `ENQUEUE` stores in its
slot of `OUT`. -/
theorem onlyEnqueueWritesMemory : Obligations.OnlyEnqueueWritesMemory := by
  intro i s t hd h
  refine ⟨fun he hs a => (exec_sameBytes hd h he hs).readByte a, fun hcap hf a ha => ?_⟩
  by_cases he : i = .enqueue
  · subst he
    obtain ⟨-, u, ok, hu, rfl⟩ := exec_enqueue_next h
    exact (State.readByte_congr a rfl rfl rfl).trans (State.enqueue_readByte hd hcap hf hu ha)
  by_cases hs : i = .submit
  · subst hs
    rcases exec_submit_next h with ⟨-, -, -, rfl⟩ | ⟨-, -, -, u, ok, hu, rfl⟩
    · exact State.readByte_congr a rfl rfl rfl
    · exact (State.readByte_congr a rfl rfl rfl).trans (State.enqueue_readByte hd hcap hf hu ha)
  exact (exec_sameBytes hd h he hs).readByte a

/-! ### The regions -/

/-- Settles O31: `State.readByte` reads zero there, and a store succeeds only at an address that exists outside
`ZERO`. -/
theorem zeroFrameReadsZero : Obligations.ZeroFrameReadsZero := by
  intro s k hk
  have hz : s.cfg.inZero (s.cfg.zeroBase + k) = true := by simpa [Config.inZero] using hk
  refine ⟨State.readByte_zero hz, fun b t h => ?_, fun a b ha t h => ?_⟩
  · obtain ⟨-, -, hnz⟩ := State.storeByte_ok h
    exact absurd (hz.symm.trans hnz) nofun
  · obtain ⟨-, hlt, -⟩ := State.storeByte_ok h
    omega

/-- The TX channel is bound to a slot of `OUT` or to the zero frame (R33). -/
theorem State.Inv.txAddr_inOut_or_inZero {s : State} (h : s.Inv) (hi : s.inited = true) {k : Nat}
    (hk : k < s.cfg.frameSize) :
    s.cfg.inOut (s.txAddr + k) = true ∨ s.cfg.inZero (s.txAddr + k) = true := by
  rcases (h.bindings hi).txAddr with hz | hs
  · exact .inr (by simpa [hz, Config.inZero] using hk)
  · exact .inl (hs ▸ outSlot_inOut (Nat.mod_lt _ (Config.wf_bounds h.cfg).2.1) hk)

/-- Settles O32: a slot number is reduced by `CAPACITY` or a cursor, so its slot lies in its ring, and the rings lie
in the address space beside `ZERO` (R8). -/
theorem computedAddressesInsideRegions : Obligations.ComputedAddressesInsideRegions := by
  intro s k h hk
  have hcap := (Config.wf_bounds h.cfg).2.1
  refine ⟨outSlot_inOut (Nat.mod_lt _ hcap) hk, inSlot_inIn (Nat.mod_lt _ hcap) hk, fun hi => ?_,
    fun hi => h.txAddr_inOut_or_inZero hi hk, fun a ha => ha.elim (inOut_exists h.cfg) (inIn_exists h.cfg)⟩
  rw [(h.bindings hi).rxAddr]
  exact inSlot_inIn h.rings.inCursor hk

end Sys2Proof.Machine
end

section
/-! SUPPORT. The two rings as queues of frames (`20_memory.md` R73, `10_state.md` R28, R30): the frames in consecutive
slots, how such a run of slots grows and shrinks at its ends, and what each ring operation does to both queues. -/

namespace Sys2Proof.Machine

/-! ### The frames in consecutive slots -/

/-- The frame in slot `i` of the ring at `base`. -/
def State.slotFrame (s : State) (base i : Nat) : Frame := s.readBytes (slotAddr s.cfg base i) s.cfg.frameSize

/-- The frames in `n` slots of the ring at `base`, from slot `i` on and round the end of the ring. -/
def State.ringFrames (s : State) (base i n : Nat) : List Frame :=
  (List.range n).map fun k => s.slotFrame base ((i + k) % s.cfg.capacity)

theorem State.outQueue_eq (s : State) :
    s.outQueue = s.ringFrames s.cfg.outBase s.outCursor s.outCount := rfl

theorem State.inQueue_eq (s : State) :
    s.inQueue = s.ringFrames s.cfg.inBase (s.inCursor + s.cfg.capacity - s.inCount) s.inCount := rfl

/-- The newest frame stands in the last of the slots. -/
theorem State.ringFrames_succ (s : State) (base i n : Nat) :
    s.ringFrames base i (n + 1) =
      s.ringFrames base i n ++ [s.slotFrame base ((i + n) % s.cfg.capacity)] := by
  simp [State.ringFrames, List.range_succ]

/-- The oldest frame stands in the first of the slots. -/
theorem State.ringFrames_cons (s : State) (base i n : Nat) :
    s.ringFrames base i (n + 1) =
      s.slotFrame base (i % s.cfg.capacity) :: s.ringFrames base (i + 1) n := by
  simp [State.ringFrames, List.range_succ_eq_map, Nat.add_comm, Nat.add_left_comm]

/-- Only the slot an index stands for matters. -/
theorem State.ringFrames_mod (s : State) (base n : Nat) {i j : Nat}
    (h : i % s.cfg.capacity = j % s.cfg.capacity) : s.ringFrames base i n = s.ringFrames base j n :=
  List.map_congr_left fun k _ => congrArg (s.slotFrame base) (Nat.ModEq.add_right k h)

theorem State.slotFrame_congr {s t : State} (base : Nat) {i : Nat} (hc : t.cfg = s.cfg)
    (h : ∀ l, l < s.cfg.frameSize →
      t.readByte (slotAddr s.cfg base i + l) = s.readByte (slotAddr s.cfg base i + l)) :
    t.slotFrame base i = s.slotFrame base i := by
  unfold State.slotFrame
  rw [hc]
  exact State.readBytes_congr _ _ h

theorem State.ringFrames_congr {s t : State} {base i n : Nat} (hc : t.cfg = s.cfg)
    (h : ∀ k, k < n → t.slotFrame base ((i + k) % s.cfg.capacity) =
      s.slotFrame base ((i + k) % s.cfg.capacity)) :
    t.ringFrames base i n = s.ringFrames base i n := by
  unfold State.ringFrames
  rw [hc]
  exact List.map_congr_left fun k hk => h k (List.mem_range.1 hk)

theorem State.SameBytes.slotFrame {s t : State} (h : s.SameBytes t) (base i : Nat) :
    t.slotFrame base i = s.slotFrame base i :=
  State.slotFrame_congr base h.cfg fun _ _ => h.readByte _

theorem State.SameBytes.ringFrames {s t : State} (h : s.SameBytes t) (base i n : Nat) :
    t.ringFrames base i n = s.ringFrames base i n :=
  State.ringFrames_congr h.cfg fun _ _ => h.slotFrame base _

/-! ### What the queues depend on -/

/-- With the same bytes the outbound queue is told by its registers. -/
theorem State.SameBytes.outQueue {s t : State} (h : s.SameBytes t) :
    t.outQueue = s.ringFrames s.cfg.outBase t.outCursor t.outCount := by
  rw [State.outQueue_eq, h.cfg, h.ringFrames]

/-- With the same bytes the inbound queue is told by its registers. -/
theorem State.SameBytes.inQueue {s t : State} (h : s.SameBytes t) :
    t.inQueue = s.ringFrames s.cfg.inBase (t.inCursor + s.cfg.capacity - t.inCount) t.inCount := by
  rw [State.inQueue_eq, h.cfg, h.ringFrames]

theorem State.outQueue_congr {s t : State} (h : s.SameBytes t) (hc : t.outCursor = s.outCursor)
    (hn : t.outCount = s.outCount) : t.outQueue = s.outQueue := by
  rw [h.outQueue, hc, hn, State.outQueue_eq]

theorem State.inQueue_congr {s t : State} (h : s.SameBytes t) (hc : t.inCursor = s.inCursor)
    (hn : t.inCount = s.inCount) : t.inQueue = s.inQueue := by
  rw [h.inQueue, hc, hn, State.inQueue_eq]

@[simp] theorem State.outQueue_withResult (r : MicroResult) (s : State) :
    (State.withResult r s).outQueue = s.outQueue :=
  State.outQueue_congr ⟨rfl, rfl, rfl⟩ rfl rfl

@[simp] theorem State.inQueue_withResult (r : MicroResult) (s : State) :
    (State.withResult r s).inQueue = s.inQueue :=
  State.inQueue_congr ⟨rfl, rfl, rfl⟩ rfl rfl

theorem State.outQueue_of_empty {s : State} (h : s.outCount = 0) : s.outQueue = [] := by
  simp [State.outQueue, h]

theorem State.inQueue_of_empty {s : State} (h : s.inCount = 0) : s.inQueue = [] := by
  simp [State.inQueue, h]

theorem State.length_outQueue (s : State) : s.outQueue.length = s.outCount := by simp [State.outQueue]

theorem State.length_inQueue (s : State) : s.inQueue.length = s.inCount := by simp [State.inQueue]

/-! ### `ENQUEUE` -/

/-- No byte belongs to both rings (R8). -/
theorem inIn_eq_false_of_inOut {c : Config} (h : c.wf = true) {a : Nat} (ha : c.inOut a = true) :
    c.inIn a = false := by
  obtain ⟨_, _, _, _, _, _, _, hd, _, _⟩ := Config.wf_bounds h
  simp only [Config.inOut, Config.inIn, decide_eq_true_eq, decide_eq_false_iff_not] at *
  omega

/-- The bytes of a slot other than `j` are none of those of slot `j`. -/
theorem slot_apart {c : Config} (base : Nat) {i j l : Nat} (h : i ≠ j) (hl : l < c.frameSize) :
    slotAddr c base i + l < slotAddr c base j ∨ slotAddr c base j + c.frameSize ≤ slotAddr c base i + l := by
  unfold slotAddr
  rcases Nat.lt_or_gt_of_ne h with h | h
  · have := Nat.mul_le_mul_right c.frameSize h
    rw [Nat.succ_mul] at this
    exact .inl (by omega)
  · have := Nat.mul_le_mul_right c.frameSize h
    rw [Nat.succ_mul] at this
    exact .inr (by omega)

/-- The slot `ENQUEUE` writes is none of those the stored frames stand in. -/
theorem State.storedSlot_ne_enqueueSlot {s : State} {k : Nat} (hk : k < s.outCount)
    (hn : s.outCount < s.cfg.capacity) : (s.outCursor + k) % s.cfg.capacity ≠ s.enqueueSlot := by
  intro e
  have hm : k ≡ s.outCount [MOD s.cfg.capacity] := Nat.ModEq.add_left_cancel' s.outCursor e
  rw [Nat.ModEq, Nat.mod_eq_of_lt (hk.trans hn), Nat.mod_eq_of_lt hn] at hm
  omega

/-- `s` with the frame `f` laid down in slot `i` of `OUT`. -/
def State.layFrame (i : Nat) (f : Frame) (s : State) : State :=
  { s with mem := Memory.writeBytes s.mem (slotAddr s.cfg s.cfg.outBase i) f }

theorem State.layFrame_readByte_other {s : State} {i a : Nat} {f : Frame}
    (h : a < slotAddr s.cfg s.cfg.outBase i ∨ slotAddr s.cfg s.cfg.outBase i + f.length ≤ a) :
    (s.layFrame i f).readByte a = s.readByte a :=
  State.readByte_writeBytes_other h

theorem State.layFrame_slotFrame_same {s : State} {i : Nat} {f : Frame} (h : s.cfg.wf = true)
    (hi : i < s.cfg.capacity) (hf : f.length = s.cfg.frameSize) :
    (s.layFrame i f).slotFrame s.cfg.outBase i = f := by
  show State.readBytes (s.layFrame i f) (slotAddr s.cfg s.cfg.outBase i) s.cfg.frameSize = f
  rw [← hf]
  exact State.readBytes_writeBytes fun k hk => (inOut_exists h (outSlot_inOut hi (hf ▸ hk))).2

theorem State.layFrame_slotFrame_other {s : State} {i j : Nat} {f : Frame} (hij : j ≠ i)
    (hf : f.length = s.cfg.frameSize) :
    (s.layFrame i f).slotFrame s.cfg.outBase j = s.slotFrame s.cfg.outBase j :=
  State.slotFrame_congr _ rfl fun _ hl => State.layFrame_readByte_other (hf ▸ slot_apart _ hij hl)

theorem State.layFrame_slotFrame_in {s : State} {i j : Nat} {f : Frame} (h : s.cfg.wf = true)
    (hi : i < s.cfg.capacity) (hj : j < s.cfg.capacity) (hf : f.length = s.cfg.frameSize) :
    (s.layFrame i f).slotFrame s.cfg.inBase j = s.slotFrame s.cfg.inBase j := by
  refine State.slotFrame_congr _ rfl fun l hl => State.layFrame_readByte_other ?_
  by_contra hin
  obtain ⟨k, hk⟩ := Nat.exists_eq_add_of_le (Nat.le_of_not_lt fun hlt => hin (.inl hlt))
  have hnot := inIn_eq_false_of_inOut h (outSlot_inOut (k := k) hi (by omega))
  rw [← hk, inSlot_inIn hj hl] at hnot
  cases hnot

/-- `ENQUEUE` adds its frame as the newest. -/
theorem State.outQueue_enqueue {s t : State} {f : Frame} (h : s.cfg.wf = true) (hn : s.outCount < s.cfg.capacity)
    (hf : f.length = s.cfg.frameSize) (ht : (s.layFrame s.enqueueSlot f).SameBytes t)
    (hcur : t.outCursor = s.outCursor) (hcnt : t.outCount = s.outCount + 1) :
    t.outQueue = s.outQueue ++ [f] := by
  rw [ht.outQueue, hcur, hcnt, State.ringFrames_succ, State.outQueue_eq]
  congr 1
  · exact State.ringFrames_congr rfl fun k hk =>
      State.layFrame_slotFrame_other (State.storedSlot_ne_enqueueSlot hk hn) hf
  · exact congrArg (· :: []) (State.layFrame_slotFrame_same h (Nat.mod_lt _ (Config.wf_bounds h).2.1) hf)

theorem State.inQueue_enqueue {s t : State} {f : Frame} (h : s.cfg.wf = true)
    (hf : f.length = s.cfg.frameSize) (ht : (s.layFrame s.enqueueSlot f).SameBytes t)
    (hcur : t.inCursor = s.inCursor) (hcnt : t.inCount = s.inCount) : t.inQueue = s.inQueue := by
  have hcap := (Config.wf_bounds h).2.1
  rw [ht.inQueue, hcur, hcnt, State.inQueue_eq]
  exact State.ringFrames_congr rfl fun k _ =>
    State.layFrame_slotFrame_in h (Nat.mod_lt _ hcap) (Nat.mod_lt _ hcap) hf

/-! ### `TRY_RESERVE_OUT` -/

theorem State.reserveOut_registers {s : State} (hn : 0 < s.outCount) :
    s.reserveOut.outCursor = nextSlot s.cfg s.outCursor ∧ s.reserveOut.outCount = s.outCount - 1 := by
  simp [State.reserveOut_eq, hn]

/-- `TRY_RESERVE_OUT` takes the oldest frame, in the slot of the cursor, off its ring. -/
theorem State.outQueue_eq_cons {s : State} (hc : s.outCursor < s.cfg.capacity) (hn : 0 < s.outCount) :
    s.outQueue = s.slotFrame s.cfg.outBase s.outCursor :: s.reserveOut.outQueue := by
  obtain ⟨hcur, hcnt⟩ := State.reserveOut_registers hn
  rw [s.sameBytes_reserveOut.outQueue, hcur, hcnt, State.outQueue_eq]
  obtain ⟨n, hn'⟩ := Nat.exists_eq_add_one_of_ne_zero hn.ne'
  rw [hn', State.ringFrames_cons, Nat.mod_eq_of_lt hc, Nat.add_sub_cancel]
  exact congrArg _ (s.ringFrames_mod _ _ (Nat.mod_mod _ _).symm)

theorem State.outQueue_reserveOut {s : State} (hc : s.outCursor < s.cfg.capacity) :
    s.reserveOut.outQueue = s.outQueue.tail := by
  rcases Nat.eq_zero_or_pos s.outCount with hn | hn
  · rw [State.outQueue_of_empty hn, State.outQueue_of_empty (by simp [State.reserveOut_eq, hn])]
    rfl
  · rw [State.outQueue_eq_cons hc hn, List.tail_cons]

@[simp] theorem State.inQueue_reserveOut (s : State) : s.reserveOut.inQueue = s.inQueue :=
  State.inQueue_congr s.sameBytes_reserveOut (by rw [State.reserveOut_eq]) (by rw [State.reserveOut_eq])

theorem exec_tryReserveOut_of {s : State} (h : s.lock = true) :
    exec .tryReserveOut s = .next (State.withResult (.slot s.reservedSlot) s.reserveOut) := by
  simp [exec, execTryReserveOut, h]

/-- Settles O47: the queue is the run of slots from the cursor; `ENQUEUE` lengthens it at its end, `TRY_RESERVE_OUT`
shortens it at its head. -/
theorem outboundRingIsFifo : Obligations.OutboundRingIsFifo := by
  intro s hwf hr hl hd
  refine ⟨fun hf hroom => ?enqueue, fun f q hq => ?oldest, fun hq => ?empty⟩
  case enqueue =>
    have hn : s.outCount < s.cfg.capacity := Nat.lt_of_le_of_ne hr.outCount hroom
    refine ⟨_, by rw [exec_enqueue_of hl, State.enqueue_alone hwf hf hd hroom], ?_, ?_⟩
    · exact State.outQueue_enqueue hwf hn hf ⟨rfl, rfl, rfl⟩ rfl rfl
    · exact State.inQueue_enqueue hwf hf ⟨rfl, rfl, rfl⟩ rfl rfl
  case oldest =>
    have hn : 0 < s.outCount := by rw [← s.length_outQueue, hq]; exact Nat.succ_pos _
    rw [State.outQueue_eq_cons hr.outCursor hn] at hq
    obtain ⟨rfl, rfl⟩ := List.cons.inj hq
    have hb : s.SameBytes (State.withResult (.slot s.reservedSlot) s.reserveOut) :=
      s.sameBytes_reserveOut.trans ⟨rfl, rfl, rfl⟩
    refine ⟨_, s.outCursor, exec_tryReserveOut_of hl, by simp, by simp, by simp [State.reservedSlot, hn], ?_⟩
    rw [hb.readBytes, hb.cfg]
    rfl
  case empty =>
    have hn : s.outCount = 0 := by rw [← s.length_outQueue, hq]; rfl
    refine ⟨_, exec_tryReserveOut_of hl, ?_, by simp, by simp [State.reservedSlot, hn]⟩
    rw [State.outQueue_withResult, State.outQueue_reserveOut hr.outCursor, hq, List.tail_nil]

/-! ### `ADVANCE_IN` and `DEQUEUE` -/

theorem nextSlot_add_mod (c : Config) (x k : Nat) : (nextSlot c x + k) % c.capacity = (x + 1 + k) % c.capacity :=
  Nat.mod_add_mod _ _ _

/-- Of all the slots of a ring, from one slot on and from the next on: the first becomes the last. -/
theorem State.ringFrames_round {s : State} {base i : Nat} (hi : i < s.cfg.capacity) :
    s.ringFrames base (i + 1) s.cfg.capacity =
      (s.ringFrames base i s.cfg.capacity).tail ++ [s.slotFrame base i] := by
  obtain ⟨n, hn⟩ := Nat.exists_eq_add_one_of_ne_zero (Nat.ne_zero_of_lt hi)
  have hlast : (i + 1 + n) % s.cfg.capacity = i := by
    rw [show i + 1 + n = i + s.cfg.capacity by omega, Nat.add_mod_right, Nat.mod_eq_of_lt hi]
  rw [hn, State.ringFrames_succ, State.ringFrames_cons, List.tail_cons, hlast]

/-- `ADVANCE_IN` adds the frame in the slot of the cursor as the newest; when the ring is full that slot is the oldest
frame's too, which goes. -/
theorem State.inQueue_advanceIn {s : State} (hle : s.inCount ≤ s.cfg.capacity) (hc : s.inCursor < s.cfg.capacity) :
    s.advanceIn.inQueue = (if s.inCount = s.cfg.capacity then s.inQueue.tail else s.inQueue) ++
      [s.slotFrame s.cfg.inBase s.inCursor] := by
  have hcur : s.advanceIn.inCursor = nextSlot s.cfg s.inCursor := by rw [State.advanceIn_eq]
  have hnew {x : Nat} (hx : x = s.inCursor + s.cfg.capacity) : x % s.cfg.capacity = s.inCursor := by
    rw [hx, Nat.add_mod_right, Nat.mod_eq_of_lt hc]
  rw [s.sameBytes_advanceIn.inQueue, hcur, State.inQueue_eq]
  split
  · next hfull =>
    have hcnt : s.advanceIn.inCount = s.cfg.capacity := by simp [State.advanceIn_eq, hfull]
    have hstart : nextSlot s.cfg s.inCursor % s.cfg.capacity = (s.inCursor + 1) % s.cfg.capacity :=
      Nat.mod_mod _ _
    rw [hcnt, hfull, Nat.add_sub_cancel, Nat.add_sub_cancel, s.ringFrames_mod _ _ hstart, State.ringFrames_round hc]
  · next hroom =>
    have hcnt : s.advanceIn.inCount = s.inCount + 1 := by simp [State.advanceIn_eq, hroom]
    have hstart : (nextSlot s.cfg s.inCursor + s.cfg.capacity - (s.inCount + 1)) % s.cfg.capacity =
        (s.inCursor + s.cfg.capacity - s.inCount) % s.cfg.capacity := by
      rw [Nat.add_sub_assoc (by omega), nextSlot_add_mod]
      congr 1; omega
    rw [hcnt, s.ringFrames_mod _ _ hstart, State.ringFrames_succ, hnew (by omega)]

@[simp] theorem State.outQueue_advanceIn (s : State) : s.advanceIn.outQueue = s.outQueue :=
  State.outQueue_congr s.sameBytes_advanceIn (by rw [State.advanceIn_eq]) (by rw [State.advanceIn_eq])

/-- `DEQUEUE` takes the oldest frame off its ring. -/
theorem State.inQueue_eq_cons {s t : State} (hn : s.inCount ≠ 0) (hle : s.inCount ≤ s.cfg.capacity)
    (hb : s.SameBytes t) (hcur : t.inCursor = s.inCursor) (hcnt : t.inCount = s.inCount - 1) :
    s.inQueue = s.slotFrame s.cfg.inBase s.dequeueSlot :: t.inQueue := by
  obtain ⟨n, hn'⟩ := Nat.exists_eq_add_one_of_ne_zero hn
  rw [hn'] at hle hcnt
  have hnext : s.inCursor + s.cfg.capacity - (n + 1) + 1 = s.inCursor + s.cfg.capacity - n := by omega
  rw [hb.inQueue, hcur, hcnt, State.inQueue_eq, State.dequeueSlot, hn', State.ringFrames_cons, hnext,
    Nat.add_sub_cancel]

theorem exec_advanceIn_of {s : State} (h : s.lock = true) : exec .advanceIn s = .next s.advanceIn := by
  simp [exec, execAdvanceIn, h]

/-- Settles O48: the queue is the run of slots that ends before the cursor; `ADVANCE_IN` moves its end, and its head
too when it fills the ring, and `DEQUEUE` shortens it at its head. -/
theorem inboundRingIsFifoNewestWins : Obligations.InboundRingIsFifoNewestWins := by
  intro s hwf hr hl hd
  refine ⟨⟨_, exec_advanceIn_of hl, State.inQueue_advanceIn hr.inCount hr.inCursor, s.outQueue_advanceIn⟩,
    fun f q hq => ?oldest, fun hq => ?empty⟩
  case oldest =>
    have hn : s.inCount ≠ 0 := by rw [← s.length_inQueue, hq]; exact Nat.succ_ne_zero _
    have hcons := State.inQueue_eq_cons (t := { s with inCount := s.inCount - 1 }) hn hr.inCount
      ⟨rfl, rfl, rfl⟩ rfl rfl
    rw [hq] at hcons
    obtain ⟨rfl, rfl⟩ := List.cons.inj hcons
    refine ⟨_, by rw [exec_dequeue_of hl, State.dequeue_alone hwf hd hn], ?_, ?_, ?_⟩
    · exact State.inQueue_congr ⟨rfl, rfl, rfl⟩ rfl rfl
    · exact State.outQueue_congr ⟨rfl, rfl, rfl⟩ rfl rfl
    · rfl
  case empty =>
    have hn : s.inCount = 0 := by rw [← s.length_inQueue, hq]; rfl
    refine ⟨_, by rw [exec_dequeue_of hl, State.dequeue_empty hn], ?_, ?_, ?_⟩
    · exact State.inQueue_of_empty hn
    · exact State.outQueue_congr ⟨rfl, rfl, rfl⟩ rfl rfl
    · rfl

/-! ### `REARM` -/

/-- `REARM` leaves the outbound queue as `TRY_RESERVE_OUT` does and the inbound one as `ADVANCE_IN` does (R130). -/
theorem State.outQueue_rearm (s : State) : s.rearm.outQueue = s.reserveOut.outQueue := by
  rw [State.rearm_eq, State.reserveOut_eq]
  exact State.outQueue_congr ⟨rfl, rfl, rfl⟩ rfl rfl

theorem State.inQueue_rearm (s : State) : s.rearm.inQueue = s.advanceIn.inQueue := by
  rw [State.rearm_eq, State.advanceIn_eq]
  exact State.inQueue_congr ⟨rfl, rfl, rfl⟩ rfl rfl

theorem State.readBytes_zeroBase (s : State) :
    s.readBytes s.cfg.zeroBase s.cfg.frameSize = List.replicate s.cfg.frameSize 0 := by
  refine List.ext_getElem (by simp) fun k h₁ h₂ => ?_
  rw [State.length_readBytes] at h₁
  rw [State.getElem_readBytes _ _ _ _ h₁, List.getElem_replicate]
  exact State.readByte_zero (by simpa [Config.inZero] using h₁)

/-- `REARM` binds the oldest outbound frame, or the zero frame when there is none (R132, R133). -/
theorem State.boundOutFrame_rearm {s : State} (hc : s.outCursor < s.cfg.capacity) :
    s.rearm.boundOutFrame = s.outQueue.headD (List.replicate s.cfg.frameSize 0) := by
  have haddr : s.rearm.txAddr = if 0 < s.outCount then slotAddr s.cfg s.cfg.outBase s.outCursor
      else s.cfg.zeroBase := by rw [State.rearm_eq]
  rw [State.boundOutFrame, s.sameBytes_rearm.readBytes, State.rearm_cfg, haddr]
  split
  · next hn => rw [State.outQueue_eq_cons hc hn]; rfl
  · next hn => rw [State.outQueue_of_empty (Nat.eq_zero_of_not_pos hn), State.readBytes_zeroBase]; rfl

/-- What a rebind does to the two queues and the two bound frames. -/
def State.MovesOneFrameEachWay (s t : State) : Prop :=
  t.outQueue = s.outQueue.tail ∧
  t.boundOutFrame = s.outQueue.headD (List.replicate s.cfg.frameSize 0) ∧
  t.inQueue = (if s.inCount = s.cfg.capacity then s.inQueue.tail else s.inQueue) ++ [s.boundInFrame]

theorem State.Inv.rearm_movesOneFrameEachWay {s : State} (h : s.Inv) (hi : s.inited = true) :
    s.MovesOneFrameEachWay s.rearm := by
  refine ⟨?_, State.boundOutFrame_rearm h.rings.outCursor, ?_⟩
  · rw [s.outQueue_rearm, State.outQueue_reserveOut h.rings.outCursor]
  · rw [s.inQueue_rearm, State.inQueue_advanceIn h.rings.inCount h.rings.inCursor, State.boundInFrame,
      (h.bindings hi).rxAddr]
    rfl

/-- The deassert handler moves what the `REARM` in it moves: its other operations touch neither ring nor binding. -/
theorem State.Inv.deassert_movesOneFrameEachWay {s : State} (h : s.Inv) (hi : s.inited = true) :
    s.MovesOneFrameEachWay (State.takeEvent .deasserted s).handleDeassert := by
  have hb : s.rearm.SameBytes (State.takeEvent .deasserted s).handleDeassert := by
    rw [State.rearm_eq, State.handleDeassert_eq]; exact ⟨rfl, rfl, rfl⟩
  have hout : (State.takeEvent .deasserted s).handleDeassert.outQueue = s.rearm.outQueue :=
    State.outQueue_congr hb (by rw [State.rearm_eq, State.handleDeassert_eq]; rfl)
      (by rw [State.rearm_eq, State.handleDeassert_eq]; rfl)
  have hin : (State.takeEvent .deasserted s).handleDeassert.inQueue = s.rearm.inQueue :=
    State.inQueue_congr hb (by rw [State.rearm_eq, State.handleDeassert_eq]; rfl)
      (by rw [State.rearm_eq, State.handleDeassert_eq]; rfl)
  have htx : (State.takeEvent .deasserted s).handleDeassert.txAddr = s.rearm.txAddr := by
    rw [State.rearm_eq, State.handleDeassert_eq]; rfl
  have hbound : (State.takeEvent .deasserted s).handleDeassert.boundOutFrame = s.rearm.boundOutFrame := by
    rw [State.boundOutFrame, hb.readBytes, hb.cfg, htx, State.boundOutFrame]
  unfold State.MovesOneFrameEachWay
  rw [hout, hbound, hin]
  exact h.rearm_movesOneFrameEachWay hi

/-- Settles O49, for `REARM` alone and inside the deassert handler. -/
theorem rebindMovesOneFrameEachWay : Obligations.RebindMovesOneFrameEachWay := by
  rintro i s h (⟨rfl, hi, hl⟩ | ⟨rfl, hc⟩)
  · exact ⟨_, exec_rearm_of hl hi, h.rearm_movesOneFrameEachWay hi⟩
  · exact ⟨_, exec_selDeassert_of hc, h.deassert_movesOneFrameEachWay (State.serviceChoice_some hc).1⟩

end Sys2Proof.Machine
end

section
/-! SUPPORT. The two `.body` steps under any interleaving (`20_memory.md` R67, R79): no step of another agent and no
frame copy faults under the invariant, and none of those steps touches `OUT`. -/

namespace Sys2Proof.Machine

/-! ### Nothing faults under the invariant -/

theorem inZero_exists {c : Config} (h : c.wf = true) {a : Nat} (ha : c.inZero a = true) : a < 2 ^ c.addrW := by
  obtain ⟨_, _, _, _, _, _, hz, _⟩ := Config.wf_bounds h
  simp only [Config.inZero, decide_eq_true_eq] at ha
  omega

theorem inited_of_txTrigEn {s : State} (h : s.Inv) (ht : s.txTrigEn = true) : s.inited = true := by
  by_contra hi
  exact absurd (ht.symm.trans (h.quiet (by simpa using hi)).txTrigEn) nofun

/-- The byte the TX channel reads next exists (R193). -/
theorem State.Inv.txSource_exists {s : State} (h : s.Inv) (hr : s.txReady = true) :
    s.txAddr + (s.txLen - s.txRemain) < 2 ^ s.cfg.addrW := by
  simp only [State.txReady, Bool.and_eq_true, decide_eq_true_eq] at hr
  obtain ⟨⟨hen, hpos⟩, -⟩ := hr
  have hi := inited_of_txTrigEn h hen
  rw [(h.bindings hi).txLen]
  rcases h.txAddr_inOut_or_inZero hi (Nat.sub_lt (Config.wf_bounds h.cfg).1 hpos) with ho | hz
  · exact (inOut_exists h.cfg ho).1
  · exact inZero_exists h.cfg hz

theorem State.Inv.engineTx_succeeds {s : State} (h : s.Inv) : ∃ t, s.engineTx = .ok t := by
  unfold State.engineTx
  split
  · next hr => rw [State.loadByte_of_lt (h.txSource_exists hr)]; exact ⟨_, rfl⟩
  · exact ⟨_, rfl⟩

theorem State.Inv.engineRx_succeeds {s : State} (h : s.Inv) : ∃ t, s.engineRx = .ok t := by
  unfold State.engineRx
  split
  · next hr =>
    split
    · exact ⟨_, rfl⟩
    · obtain ⟨hlt, hz⟩ := inIn_exists h.cfg (h.rxTarget_inIn hr)
      rw [State.storeByte_of_lt hlt hz]
      exact ⟨_, rfl⟩
  · exact ⟨_, rfl⟩

theorem State.Inv.envStep_succeeds {s : State} (h : s.Inv) (e : EnvStep) : ∃ t, Machine.envStep e s = .ok t := by
  cases e with
  | sel v => exact ⟨_, rfl⟩
  | pin l => exact ⟨_, rfl⟩
  | xchg m => exact ⟨_, rfl⟩
  | txByte => exact h.engineTx_succeeds
  | rxByte => exact h.engineRx_succeeds

theorem State.Inv.envSteps_succeeds {s : State} (h : s.Inv) (es : List EnvStep) :
    ∃ t, Machine.envSteps es s = .ok t := by
  induction es generalizing s with
  | nil => exact ⟨s, rfl⟩
  | cons e es ih =>
    obtain ⟨u, hu⟩ := h.envStep_succeeds e
    obtain ⟨t, ht⟩ := ih (h.envStep hu)
    exact ⟨t, by rw [Machine.envSteps, hu]; exact ht⟩

/-- A copy into `OUT` ends, whatever other agents do inside it. -/
theorem State.Inv.copyIn_succeeds {s : State} (h : s.Inv) {a : Nat} {f : Frame} (d : List (List EnvStep))
    (ha : ∀ k, k < f.length → s.cfg.inOut (a + k) = true) : ∃ t, Machine.copyIn a f d s = .ok t := by
  induction f generalizing a d s with
  | nil => exact h.envSteps_succeeds _
  | cons b f ih =>
    obtain ⟨s₁, h₁⟩ := h.envSteps_succeeds (d.headD [])
    have hi₁ := h.envSteps h₁
    have hc₁ := (envSteps_keeps h₁).cfg
    have ha₀ : s₁.cfg.inOut a = true := hc₁ ▸ ha 0 (Nat.zero_lt_succ _)
    obtain ⟨hlt, hz⟩ := inOut_exists hi₁.cfg ha₀
    have h₂ := State.storeByte_of_lt (b := b) hlt hz
    obtain ⟨t, ht⟩ := ih (hi₁.storeByte (.inl ha₀) h₂) (a := a + 1) d.tail fun k hk => by
      show s₁.cfg.inOut (a + 1 + k) = true
      rw [hc₁, Nat.add_assoc, Nat.add_comm 1]
      exact ha (k + 1) (Nat.succ_lt_succ hk)
    exact ⟨t, by simp only [Machine.copyIn, h₁, h₂, ht]⟩

/-- A copy out of addresses that exist ends, whatever other agents do inside it. -/
theorem State.Inv.copyOut_succeeds {s : State} (h : s.Inv) {a n : Nat} (d : List (List EnvStep))
    (ha : ∀ k, k < n → a + k < 2 ^ s.cfg.addrW) : ∃ t f, Machine.copyOut a n d s = .ok (t, f) := by
  induction n generalizing a d s with
  | zero =>
    obtain ⟨t, ht⟩ := h.envSteps_succeeds d.flatten
    exact ⟨t, [], by rw [Machine.copyOut, ht]⟩
  | succ n ih =>
    obtain ⟨s₁, h₁⟩ := h.envSteps_succeeds (d.headD [])
    have hc₁ := (envSteps_keeps h₁).cfg
    have h₂ : s₁.loadByte a = .ok (s₁.readByte a) := State.loadByte_of_lt (hc₁ ▸ ha 0 (Nat.zero_lt_succ _))
    obtain ⟨t, f, ht⟩ := ih (h.envSteps h₁) (a := a + 1) d.tail fun k hk => by
      rw [hc₁, Nat.add_assoc, Nat.add_comm 1]
      exact ha (k + 1) (Nat.succ_lt_succ hk)
    exact ⟨t, s₁.readByte a :: f, by simp only [Machine.copyOut, h₁, h₂, ht]⟩

/-- `ENQUEUE` ends, whatever other agents do inside its copy. -/
theorem State.Inv.enqueue_succeeds {s : State} (h : s.Inv) {f : Frame} (hf : f.length = s.cfg.frameSize) :
    ∃ t ok, s.enqueue f = .ok (t, ok) := by
  by_cases hc : s.outCount = s.cfg.capacity
  · exact ⟨_, _, State.enqueue_full f hc⟩
  · have h₀ : State.Inv { s with during := [] } := h.update
    obtain ⟨u, hu⟩ := h₀.copyIn_succeeds s.during fun k hk =>
      outSlot_inOut (i := s.enqueueSlot) (Nat.mod_lt _ (Config.wf_bounds h.cfg).2.1) (hf ▸ hk)
    exact ⟨_, _, by rw [State.enqueue_room f hc, hu]⟩

/-- `DEQUEUE` ends, whatever other agents do inside its copy. -/
theorem State.Inv.dequeue_succeeds {s : State} (h : s.Inv) : ∃ t r, s.dequeue = .ok (t, r) := by
  by_cases hc : s.inCount = 0
  · exact ⟨_, _, State.dequeue_empty hc⟩
  · have h₀ : State.Inv { s with during := [] } := h.update
    obtain ⟨u, f, hu⟩ := h₀.copyOut_succeeds s.during fun k hk =>
      (inIn_exists h.cfg (inSlot_inIn (i := s.dequeueSlot) (Nat.mod_lt _ (Config.wf_bounds h.cfg).2.1) hk)).1
    exact ⟨_, _, by rw [State.dequeue_some hc, hu]⟩

/-! ### Other agents write inside `IN` alone -/

theorem State.sameBytes_masterSel (v : Bool) (s : State) : s.SameBytes (s.masterSel v) := by
  rw [State.masterSel, State.detect_eq]; exact ⟨rfl, rfl, rfl⟩

theorem State.sameBytes_masterXchg (m : Byte) (s : State) : s.SameBytes (s.masterXchg m) := by
  unfold State.masterXchg; split <;> exact ⟨rfl, rfl, rfl⟩

theorem State.sameBytes_engineTx {s t : State} (h : s.engineTx = .ok t) : s.SameBytes t := by
  unfold State.engineTx at h
  split at h
  · split at h
    · cases h
    · cases h; exact ⟨rfl, rfl, rfl⟩
  · cases h; exact ⟨rfl, rfl, rfl⟩

theorem State.Inv.engineRx_readByte {s t : State} (h : s.Inv) (ht : s.engineRx = .ok t) {x : Nat}
    (hx : s.cfg.inIn x = false) : t.readByte x = s.readByte x := by
  unfold State.engineRx at ht
  split at ht
  · next hr =>
    split at ht
    · cases ht; rfl
    · next b rest _ =>
      split at ht
      · cases ht
      · next u hu =>
        obtain ⟨rfl, -, -⟩ := State.storeByte_ok hu
        cases ht
        have hne : x ≠ s.rxAddr + (s.rxLen - s.rxRemain) := by
          rintro rfl
          exact absurd (hx.symm.trans (h.rxTarget_inIn hr)) nofun
        exact (State.readByte_congr x rfl rfl rfl).trans (State.readByte_write_other s b hne)
  · cases ht; rfl

theorem State.Inv.envStep_readByte {s t : State} (h : s.Inv) {e : EnvStep} (ht : Machine.envStep e s = .ok t)
    {x : Nat} (hx : s.cfg.inIn x = false) : t.readByte x = s.readByte x := by
  cases e with
  | sel v => cases ht; exact (s.sameBytes_masterSel v).readByte x
  | pin l => cases ht; exact (s.sameBytes_masterSel _).readByte x
  | xchg m => cases ht; exact (s.sameBytes_masterXchg m).readByte x
  | txByte => exact (State.sameBytes_engineTx ht).readByte x
  | rxByte => exact h.engineRx_readByte ht hx

theorem State.Inv.envSteps_readByte {s t : State} (h : s.Inv) {es : List EnvStep}
    (ht : Machine.envSteps es s = .ok t) {x : Nat} (hx : s.cfg.inIn x = false) : t.readByte x = s.readByte x := by
  induction es generalizing s with
  | nil => cases ht; rfl
  | cons e es ih =>
    simp only [Machine.envSteps] at ht
    split at ht
    · cases ht
    · next u hu =>
      have hx' : u.cfg.inIn x = false := (envStep_keeps hu).cfg ▸ hx
      exact (ih (h.envStep hu) ht hx').trans (h.envStep_readByte hu hx)

/-! ### A copy into `OUT` ends with the whole frame laid down -/

/-- The first byte of a copy into `OUT`: the state from which the rest is copied. -/
theorem State.Inv.copyIn_first {s t : State} (h : s.Inv) {a : Nat} {b : Byte} {f : Frame}
    {d : List (List EnvStep)} (ha : ∀ k, k < (b :: f).length → s.cfg.inOut (a + k) = true)
    (ht : Machine.copyIn a (b :: f) d s = .ok t) :
    ∃ u : State, u.Inv ∧ u.cfg = s.cfg ∧ (∀ k, k < f.length → u.cfg.inOut (a + 1 + k) = true) ∧
      u.readByte a = b ∧ (∀ x, s.cfg.inIn x = false → x ≠ a → u.readByte x = s.readByte x) ∧
      Machine.copyIn (a + 1) f d.tail u = .ok t := by
  simp only [Machine.copyIn] at ht
  split at ht
  · cases ht
  · next s₁ h₁ =>
    split at ht
    · cases ht
    · next u h₂ =>
      have hc₁ := (envSteps_keeps h₁).cfg
      have hc : u.cfg = s.cfg := (State.envKeeps_storeByte h₂).cfg.trans hc₁
      have hi := (h.envSteps h₁).storeByte (.inl (hc₁ ▸ ha 0 (Nat.zero_lt_succ _))) h₂
      obtain ⟨rfl, -, hz⟩ := State.storeByte_ok h₂
      refine ⟨_, hi, hc, fun k hk => ?_, State.readByte_write_same s₁ a b hz, fun x hx hne => ?_, ht⟩
      · rw [hc, Nat.add_assoc, Nat.add_comm 1]
        exact ha (k + 1) (Nat.succ_lt_succ hk)
      · exact (State.readByte_write_other s₁ b hne).trans (h.envSteps_readByte h₁ hx)

/-- What lies below the copy and outside `IN` stays. -/
theorem State.Inv.copyIn_readByte_before {s t : State} (h : s.Inv) {a : Nat} {f : Frame} {d : List (List EnvStep)}
    (ha : ∀ k, k < f.length → s.cfg.inOut (a + k) = true) (ht : Machine.copyIn a f d s = .ok t) {x : Nat}
    (hx : s.cfg.inIn x = false) (hlt : x < a) : t.readByte x = s.readByte x := by
  induction f generalizing a d s with
  | nil => exact h.envSteps_readByte ht hx
  | cons b f ih =>
    obtain ⟨u, hu, hc, hau, -, hrest, hcopy⟩ := h.copyIn_first ha ht
    exact (ih hu hau hcopy (hc ▸ hx) (Nat.lt_succ_of_lt hlt)).trans (hrest x hx (Nat.ne_of_lt hlt))

/-- The frame reads back whole, whatever other agents did inside the copy. -/
theorem State.Inv.copyIn_readBytes {s t : State} (h : s.Inv) {a : Nat} {f : Frame} {d : List (List EnvStep)}
    (ha : ∀ k, k < f.length → s.cfg.inOut (a + k) = true) (ht : Machine.copyIn a f d s = .ok t) :
    t.readBytes a f.length = f := by
  induction f generalizing a d s with
  | nil => rfl
  | cons b f ih =>
    obtain ⟨u, hu, hc, hau, hfirst, -, hcopy⟩ := h.copyIn_first ha ht
    have ha₀ : u.cfg.inIn a = false := hc ▸ inIn_eq_false_of_inOut h.cfg (ha 0 (Nat.zero_lt_succ _))
    rw [List.length_cons, State.readBytes, hu.copyIn_readByte_before hau hcopy ha₀ (Nat.lt_succ_self a), hfirst,
      ih hu hau hcopy]

/-! ### The two operations -/

theorem State.Inv.enqueue_slotFrame {s t : State} (h : s.Inv) {f : Frame} {ok : Bool}
    (hf : f.length = s.cfg.frameSize) (hc : s.outCount ≠ s.cfg.capacity) (ht : s.enqueue f = .ok (t, ok)) :
    t.readBytes (slotAddr s.cfg s.cfg.outBase s.enqueueSlot) s.cfg.frameSize = f := by
  rcases State.enqueue_ok ht with ⟨hfull, -, -⟩ | ⟨-, -, u, hu, -, rfl⟩
  · exact absurd hfull hc
  · have h₀ : State.Inv { s with during := [] } := h.update
    have hframe := h₀.copyIn_readBytes (fun k hk =>
      outSlot_inOut (i := s.enqueueSlot) (Nat.mod_lt _ (Config.wf_bounds h.cfg).2.1) (hf ▸ hk)) hu
    have hcount : u.SameBytes { u with outCount := s.outCount + 1 } := ⟨rfl, rfl, rfl⟩
    rw [hcount.readBytes, ← hf]
    exact hframe

theorem State.enqueue_outCount {s t : State} {f : Frame} {ok : Bool} (ht : s.enqueue f = .ok (t, ok)) :
    t.outCount = if s.outCount = s.cfg.capacity then s.outCount else s.outCount + 1 := by
  rcases State.enqueue_ok ht with ⟨hfull, -, rfl⟩ | ⟨hroom, -, u, -, -, rfl⟩
  · rw [if_pos hfull]; rfl
  · rw [if_neg hroom]

theorem State.dequeue_inCount {s t : State} {r : Option Frame} (ht : s.dequeue = .ok (t, r)) :
    t.inCount = s.inCount - 1 := by
  rcases State.dequeue_ok ht with ⟨hempty, -, rfl⟩ | ⟨-, u, f, -, -, -, -, rfl⟩
  · simp [hempty]
  · rfl

theorem State.respond_inCount (r : Option Frame) (s : State) : (State.respond r s).inCount = s.inCount := by
  cases r <;> rfl

/-- The size output tells whether a frame came, and without one the frame output stays (R167). -/
theorem State.dequeue_respond {s t : State} {r : Option Frame} (ht : s.dequeue = .ok (t, r)) :
    (State.respond r t).respSize = (if s.inCount = 0 then 0 else s.cfg.frameSize) ∧
      (s.inCount = 0 → (State.respond r t).respFrame = s.respFrame) := by
  have hc := State.dequeue_cfg ht
  rcases State.dequeue_ok ht with ⟨hempty, rfl, rfl⟩ | ⟨hsome, u, f, -, -, rfl, -, rfl⟩
  · exact ⟨(if_pos hempty).symm, fun _ => rfl⟩
  · rw [if_neg hsome]
    exact ⟨congrArg Config.frameSize hc, fun hempty => absurd hempty hsome⟩

theorem notMem_copyWrites {r : Reg} (h : r ∉ detectorRegs) (d : List (List EnvStep)) : r ∉ copyWrites d :=
  fun hr => h (mem_copyWrites hr).1

/-- Settles O52: the copy ends with the frame in its slot of `OUT`, which no other agent writes; then the domain is
released. -/
theorem submitRunsUnderAnyInterleaving : Obligations.SubmitRunsUnderAnyInterleaving := by
  intro s h hq hop
  obtain ⟨u, ok, hu⟩ := h.enqueue_succeeds h.host.frame
  have hx : exec .submit s = .next u.hostRelease := by
    rw [exec_submit_body hq hop (h.host.held_lock hq), State.submitBody, hu]; rfl
  refine ⟨_, hx, h.exec (by decide) hx, rfl, rfl, ?count, fun hroom => ?frame, fun r hr hd => ?regs⟩
  case count => rw [State.hostRelease_outCount, State.enqueue_outCount hu]
  case frame =>
    have hrelease : u.SameBytes u.hostRelease := ⟨rfl, rfl, rfl⟩
    rw [hrelease.readBytes, h.enqueue_slotFrame h.host.frame hroom hu]
  case regs =>
    refine (State.writesOnly_enqueue hu).trans u.writesOnly_hostRelease r ?_
    simp only [List.mem_append, List.mem_cons, List.not_mem_nil, or_false, not_or] at hr ⊢
    exact ⟨⟨notMem_copyWrites hd _, hr.2.2⟩, hr.1, hr.2.1⟩

/-- Settles O53: the copy out ends with as many bytes as a frame has; then the result is driven and the domain
released. -/
theorem receiveRunsUnderAnyInterleaving : Obligations.ReceiveRunsUnderAnyInterleaving := by
  intro s h hq hop
  obtain ⟨u, x, hu⟩ := h.dequeue_succeeds
  have hx : exec .receive s = .next (State.respond x u).hostRelease := by
    rw [exec_receive_body hq hop (h.host.held_lock hq), State.receiveBody, hu]; rfl
  have hinv := h.exec (by decide) hx
  obtain ⟨hsize, hstays⟩ := State.dequeue_respond hu
  refine ⟨_, hx, hinv, rfl, rfl, ?count, hsize, ?length, hstays, fun r hr hd => ?regs⟩
  case count => rw [State.hostRelease_inCount, State.respond_inCount, State.dequeue_inCount hu]
  case length => exact hinv.host.respFrame.trans (congrArg Config.frameSize (exec_cfg hx))
  case regs =>
    refine (State.writesOnly_dequeue hu).trans ((u.writesOnly_respond x).trans (State.writesOnly_hostRelease _)) r ?_
    simp only [List.mem_append, List.mem_cons, List.not_mem_nil, or_false, not_or, false_or] at hr ⊢
    exact ⟨⟨notMem_copyWrites hd _, hr.2.2⟩, hr.1, hr.2.1⟩

end Sys2Proof.Machine
end

section
/-! SUPPORT. The operation word (`30_encoding.md` R91, R93, R96, R97): a word is its three fields, the decoder reads the
opcode map off them, and the encoder writes the same map. -/

namespace Sys2Proof

/-! ### The fields and the opcode map -/

theorem opClass_lt (w : OpWord) : opClass w < 4 := BitVec.isLt _

theorem opArg_lt (w : OpWord) : opArg w < 4 := BitVec.isLt _

/-- R91: the three fields are the whole word. -/
theorem wordOfFields_fields (w : OpWord) : wordOfFields (opClass w) (opNumber w) (opArg w) = w := by
  simp only [wordOfFields, opClass, opNumber, opArg, BitVec.ofNat_toNat, BitVec.setWidth_eq]
  rw [BitVec.extractLsb'_append_extractLsb'_eq_extractLsb' (start₁ := 2) (len₁ := 4) rfl,
    BitVec.extractLsb'_append_extractLsb'_eq_extractLsb' (start₁ := 0) (len₁ := 2) rfl, BitVec.extractLsb'_eq_self]

/-- R96: the gaps of the opcode map, class by class. -/
theorem opOf_eq_none_iff {cls op : Nat} (arg : Nat) (h : cls < 4) :
    opOf cls op arg = none ↔ cls = 3 ∨ (cls = 0 ∧ op ≠ 1 ∧ op ≠ 2 ∧ op ≠ 3) ∨ (cls = 1 ∧ op ≠ 1 ∧ op ≠ 2) ∨
      (cls = 2 ∧ 9 < op) := by
  unfold opOf
  split
  case h_16 => grind
  all_goals simp

theorem usesArg_iff_of_opOf {cls op arg : Nat} {i : Instr} (h : opOf cls op arg = some i) :
    usesArg i = true ↔ cls = 2 ∧ op = 9 := by
  unfold opOf at h
  split at h <;> cases h <;> simp [usesArg]

/-- R94: the field `arg` is its two bits. -/
theorem trigArg_testBit {arg : Nat} (h : arg < 4) : trigArg (arg.testBit 1) (arg.testBit 0) = arg := by
  interval_cases arg <;> rfl

/-- The encoder writes the fields the opcode map reads: `arg` is zero, or it is the operand of `SET_TRIG`. -/
theorem encode_of_opOf {cls op arg : Nat} {i : Instr} (h : opOf cls op arg = some i) (ha : arg < 4)
    (hu : arg = 0 ∨ usesArg i = true) : encode i = wordOfFields cls op arg := by
  rcases hu with rfl | hu
  · unfold opOf at h
    split at h <;> cases h <;> rfl
  · obtain ⟨rfl, rfl⟩ := (usesArg_iff_of_opOf h).1 hu
    cases h
    rw [encode, trigArg_testBit ha]

/-! ### The decoder -/

/-- R97: a word is an operation when the map has one for its fields and `arg` is zero where it is not used. -/
theorem decode_eq_ok_iff {w : OpWord} {i : Instr} :
    decode w = .ok i ↔ opOf (opClass w) (opNumber w) (opArg w) = some i ∧ (opArg w = 0 ∨ usesArg i = true) := by
  unfold decode
  split
  case isTrue h3 => simp [(opOf_eq_none_iff (op := opNumber w) (opArg w) (opClass_lt w)).2 (.inl h3)]
  case isFalse =>
    split
    case h_1 h => simp [h]
    case h_2 j h =>
      rw [h, Option.some_inj]
      constructor
      · intro hj
        split at hj <;> cases hj
        exact ⟨rfl, ‹_›⟩
      · rintro ⟨rfl, hu⟩
        exact if_pos hu

/-- R96: a word is reserved when the map has no operation for its fields, or `arg` is not zero outside `SET_TRIG`. -/
theorem decode_toOption_eq_none_iff {w : OpWord} :
    (decode w).toOption = none ↔
      opOf (opClass w) (opNumber w) (opArg w) = none ∨ (opArg w ≠ 0 ∧ ¬ (opClass w = 2 ∧ opNumber w = 9)) := by
  have hnone : (decode w).toOption = none ↔ ∀ i, decode w ≠ .ok i := by
    cases decode w <;> simp [Except.toOption]
  simp only [hnone, ne_eq, decode_eq_ok_iff]
  cases hop : opOf (opClass w) (opNumber w) (opArg w) with
  | none => simp
  | some i => simp [← usesArg_iff_of_opOf hop]

theorem decode_encode (i : Instr) : decode (encode i) = .ok i := by
  cases i with
  | setTrig t r => cases t <;> cases r <;> rfl
  | _ => rfl

theorem encode_of_decode {w : OpWord} {i : Instr} (h : decode w = .ok i) : encode i = w := by
  obtain ⟨hop, harg⟩ := decode_eq_ok_iff.1 h
  rw [encode_of_opOf hop (opArg_lt w) harg, wordOfFields_fields]

theorem length_validWords :
    ((List.range 256).filter fun n => (decode (BitVec.ofNat 8 n)).toOption.isSome).length = 18 := by
  decide

/-- Settles O3: the decoder reads the fields the encoder writes, and the encoder writes the fields the decoder read. -/
theorem decodeEncodeAgree : Obligations.DecodeEncodeAgree := by
  refine ⟨fun i rest _ => ?bytes, fun w i => encode_of_decode, fun i _ => ?table⟩
  case bytes => simp [encodeBytes, decodeBytes, decode_encode]
  case table => simp [decodeTableWord, decodeBytes, decode_encode, (encode i).isLt]

/-- Settles O1: the words of the map are the encodings of the operations. -/
theorem opcodeMapWords : Obligations.OpcodeMapWords :=
  ⟨decode_encode .init, decode_encode .submit, decode_encode .receive, decode_encode .selAssert,
    decode_encode .selDeassert, decode_encode .xdAcquire, decode_encode .xdRelease, decode_encode .enqueue,
    decode_encode .dequeue, decode_encode .tryReserveOut, decode_encode .advanceIn, decode_encode .rearm,
    decode_encode .haltEngine, decode_encode .drainRxq, decode_encode (.setTrig false false),
    decode_encode (.setTrig false true), decode_encode (.setTrig true false), decode_encode (.setTrig true true),
    length_validWords⟩

/-- Settles O2: the reserved words are the gaps of the map and the words with a stray `arg`; the words that are not
valid are as many as the valid ones leave. -/
theorem reservedWordsExactly : Obligations.ReservedWordsExactly := by
  refine ⟨fun w => ?words, ?count⟩
  case words =>
    rw [decode_toOption_eq_none_iff, opOf_eq_none_iff _ (opClass_lt w)]
    simp only [or_assoc]
  case count =>
    have h := List.length_eq_length_filter_add (l := List.range 256)
      fun n => (decode (BitVec.ofNat 8 n)).toOption.isSome
    simp only [Option.not_isSome] at h
    rw [length_validWords, List.length_range] at h
    omega

end Sys2Proof
end

section
/-! SUPPORT. A word on its way to its operation (`30_encoding.md` R97): issued alone, or presented by the host. -/

namespace Sys2Proof.Machine

theorem runWord_of_decode {w : OpWord} {i : Instr} (h : decode w = .ok i) (s : State) : runWord w s = exec i s := by
  simp only [runWord, h]

theorem acceptCommand_idle {s : State} {i : Instr} (hq : s.hseq = .idle) (h : decode s.cmd = .ok i)
    (hi : i.format = .host) : acceptCommand s = exec i s := by
  simp only [acceptCommand, h, hi, hq, if_true]

theorem step_issue {s : State} {w : OpWord} {rest : List Turn} {i : Instr} (hs : s.sched = .issue w :: rest)
    (h : decode w = .ok i) : step s = exec i (s.begin rest) :=
  (step_turn hs).trans (runWord_of_decode h _)

/-- Settles O4: the turn is the next one, and the word placed is the operation's own. -/
theorem stepRunsTheDecodedWord : Obligations.StepRunsTheDecodedWord := by
  refine ⟨fun s w rest i => step_issue, fun s i => ?_⟩
  have hw : BitVec.ofNat 8 ((encode i).toNat % 2 ^ 8) = encode i := by
    rw [Nat.mod_eq_of_lt (encode i).isLt, BitVec.ofNat_toNat, BitVec.setWidth_eq]
  exact step_issue rfl (by rw [hw, decode_encode])

/-- Settles O5: the word is on the port when it is decoded, and no operation is held. -/
theorem stepRunsTheHostCommand : Obligations.StepRunsTheHostCommand :=
  fun _ _ _ _ _ hs hq hd hi => (step_turn hs).trans (acceptCommand_idle hq hd hi)

end Sys2Proof.Machine
end

section
/-! SUPPORT. Composite operations and their expansions (`30_encoding.md` R98). -/

namespace Sys2Proof.Machine

/-! ### Several operations one after another -/

theorem runAll_cons {i : Instr} {s t : State} (h : exec i s = .next t) (is : List Instr) :
    runAll (i :: is) s = runAll is t := by
  simp only [runAll, h]

theorem runAll_cons_next {i : Instr} {is : List Instr} {s u : State} (h : runAll (i :: is) s = .next u) :
    ∃ t, exec i s = .next t ∧ runAll is t = .next u := by
  unfold runAll at h
  split at h
  · next t ht => exact ⟨t, ht, h⟩
  · cases h
  · cases h

@[simp] theorem runAll_singleton (i : Instr) (s : State) : runAll [i] s = exec i s := by
  cases h : exec i s <;> simp only [runAll, h]

theorem exec_xdAcquire_of {s : State} (h : s.lock = false) : exec .xdAcquire s = .next s.takeLock := by
  simp [exec, execXdAcquire, h]

theorem exec_xdRelease_of {s : State} (h : s.lock = true) : exec .xdRelease s = .next s.dropLock := by
  simp [exec, execXdRelease, h]

/-- An operation and the release of the domain after it: the end of a host operation. -/
theorem runAll_release_next {i : Instr} {s u : State} (h : runAll [i, .xdRelease] s = .next u) :
    ∃ t, exec i s = .next t ∧ u = t.dropLock := by
  obtain ⟨t, ht, hu⟩ := runAll_cons_next h
  rw [runAll_singleton] at hu
  exact ⟨t, ht, (exec_xdRelease_next hu).2⟩

/-! ### What the shared operations leave of the report and the lock -/

@[simp] theorem State.advanceIn_lock (s : State) : s.advanceIn.lock = s.lock := by rw [State.advanceIn_eq]

@[simp] theorem State.reserveOut_lock (s : State) : s.reserveOut.lock = s.lock := by rw [State.reserveOut_eq]

@[simp] theorem State.advanceIn_result (s : State) : s.advanceIn.report.result = s.report.result := by
  rw [State.advanceIn_eq]

@[simp] theorem State.reserveOut_result (s : State) : s.reserveOut.report.result = s.report.result := by
  rw [State.reserveOut_eq]

/-- Whatever other agents do inside the frame copy of `ENQUEUE`. -/
theorem State.enqueue_result {s t : State} {f : Frame} {ok : Bool} (h : s.enqueue f = .ok (t, ok)) :
    t.report.result = s.report.result := by
  rcases State.enqueue_ok h with ⟨-, -, rfl⟩ | ⟨-, -, u, -, hk, rfl⟩
  · rfl
  · exact hk.result

/-- Whatever other agents do inside the frame copy of `DEQUEUE`. -/
theorem State.dequeue_result {s t : State} {r : Option Frame} (h : s.dequeue = .ok (t, r)) :
    t.report.result = s.report.result := by
  rcases State.dequeue_ok h with ⟨-, -, rfl⟩ | ⟨-, u, f, -, hk, -, -, rfl⟩
  · rfl
  · exact hk.result

theorem State.dequeue_respFrame {s t : State} {r : Option Frame} (h : s.dequeue = .ok (t, r)) :
    t.respFrame = s.respFrame := by
  rcases State.dequeue_ok h with ⟨-, -, rfl⟩ | ⟨-, u, f, -, hk, -, -, rfl⟩
  · rfl
  · exact hk.respFrame

/-- R166 (a): a result recorded inside the block and then discarded leaves no trace. -/
theorem State.withResult_discarded {s : State} {r : MicroResult} (x : MicroResult) (h : s.report.result = r) :
    State.withResult r (State.withResult x s) = s := by
  subst h; rfl

/-! ### The event handlers -/

theorem exec_selDeassert_eq_runAll {s : State} (h : s.serviceChoice = some .deasserted) :
    exec .selDeassert s =
      runAll [.haltEngine, .drainRxq, .rearm, .setTrig true true] (State.takeEvent .deasserted s) := by
  obtain ⟨hi, hl, -⟩ := State.serviceChoice_some h
  have hrearm : exec .rearm (State.takeEvent .deasserted s).haltEngine.drainRxq = .next _ := exec_rearm_of hl hi
  rw [exec_selDeassert_of h, runAll_cons rfl, runAll_cons rfl, runAll_cons hrearm, runAll_singleton]
  rfl

theorem exec_selAssert_of_empty {s : State} (h : s.serviceChoice = some .asserted) (hq : s.txq = []) :
    exec .selAssert s = runAll [.setTrig true true] (State.takeEvent .asserted s) := by
  have hempty : (State.takeEvent .asserted s).txqEmpty = true := List.isEmpty_iff.2 hq
  rw [exec_selAssert_of h, State.handleAssert, if_pos hempty]
  rfl

theorem exec_selAssert_of_stale {s : State} (h : s.serviceChoice = some .asserted) (hq : s.txq ≠ []) :
    exec .selAssert s =
      runAll [.setTrig false true] (State.raise .staleTxQueue (State.takeEvent .asserted s)) := by
  have hstale : ¬ (State.takeEvent .asserted s).txqEmpty = true := mt List.isEmpty_iff.1 hq
  rw [exec_selAssert_of h, State.handleAssert, if_neg hstale]
  rfl

/-! ### `REARM` -/

/-- R131: the inbound binding is that of the cursor `ADVANCE_IN` leaves. -/
theorem State.rearmIn_eq (s : State) :
    s.rearmIn = State.bindRx (slotAddr s.advanceIn.cfg s.advanceIn.cfg.inBase s.advanceIn.inCursor) s.advanceIn := by
  rw [State.rearmIn, State.advanceIn_cfg]

/-- R132: a stored frame is bound next. -/
theorem State.rearmOut_of_some {s : State} {k : Nat} (h : s.reservedSlot = some k) :
    s.rearmOut = State.bindTx (slotAddr s.cfg s.cfg.outBase k) s.reserveOut := by
  simp only [State.rearmOut, State.outboundTarget, h]

/-- R132: with none stored, the zero frame. -/
theorem State.rearmOut_of_none {s : State} (h : s.reservedSlot = none) :
    s.rearmOut = State.bindTx s.cfg.zeroBase s.reserveOut := by
  simp only [State.rearmOut, State.outboundTarget, h]

/-- `REARM` up to its inbound binding: the domain held, and the result of the report as before. -/
theorem State.rearmIn_takeLock (s : State) :
    s.takeLock.rearmIn.lock = true ∧ s.takeLock.rearmIn.report.result = s.report.result := by
  simp [State.rearmIn]

/-- The outbound half of `REARM` as its operations: reserve, bind what was reserved, release. -/
theorem exec_rearm_outbound {s u : State} (hx : exec .rearm s = .next u.rearmOut.dropLock) (hl : u.lock = true)
    (hr : u.report.result = s.report.result) :
    ∃ b, exec .tryReserveOut u = .next b ∧
      ((∃ k, b.report.result = .slot (some k) ∧
        exec .rearm s = exec .xdRelease (State.bindTx (slotAddr b.cfg b.cfg.outBase k)
          (State.withResult s.report.result b))) ∨
       (b.report.result = .slot none ∧
        exec .rearm s = exec .xdRelease (State.bindTx b.cfg.zeroBase (State.withResult s.report.result b)))) := by
  have hrelease (a : Nat) :
      exec .xdRelease (State.bindTx a u.reserveOut) = .next (State.bindTx a u.reserveOut).dropLock :=
    exec_xdRelease_of ((State.reserveOut_lock u).trans hl)
  refine ⟨_, exec_tryReserveOut_of hl, ?_⟩
  rw [State.withResult_discarded _ ((State.reserveOut_result u).trans hr), State.withResult_cfg, State.reserveOut_cfg,
    hx]
  cases hk : u.reservedSlot with
  | some k => exact .inl ⟨k, rfl, by rw [hrelease, State.rearmOut_of_some hk]⟩
  | none => exact .inr ⟨rfl, by rw [hrelease, State.rearmOut_of_none hk]⟩

/-! ### The bodies of the host operations -/

theorem exec_submit_of_runAll {s u : State} (hq : s.hseq = .held) (hl : s.lock = true) (hop : s.hcmd.op = .submit)
    (h : runAll [.enqueue, .xdRelease] s = .next u) :
    ∃ v ok, s.enqueue s.hcmd.frame = .ok (v, ok) ∧ u = (State.withResult (.ok ok) v).dropLock ∧
      exec .submit s = .next v.hostRelease := by
  obtain ⟨t, ht, rfl⟩ := runAll_release_next h
  obtain ⟨-, v, ok, hv, rfl⟩ := exec_enqueue_next ht
  exact ⟨v, ok, hv, rfl, by rw [exec_submit_body hq hop hl, State.submitBody, hv]; rfl⟩

theorem exec_receive_of_runAll {s u : State} (hq : s.hseq = .held) (hl : s.lock = true) (hop : s.hcmd.op = .receive)
    (h : runAll [.dequeue, .xdRelease] s = .next u) :
    ∃ v r, s.dequeue = .ok (v, r) ∧ u = (State.withResult (.frame r) v).dropLock ∧
      exec .receive s = .next (State.respond r v).hostRelease := by
  obtain ⟨t, ht, rfl⟩ := runAll_release_next h
  obtain ⟨-, v, r, hv, rfl⟩ := exec_dequeue_next ht
  exact ⟨v, r, hv, rfl, by rw [exec_receive_body hq hop hl, State.receiveBody, hv]; rfl⟩

/-- Settles O30, composite by composite: each runs the shared operations its expansion runs, in the same order. -/
theorem compositesAreTheirExpansions : Obligations.CompositesAreTheirExpansions := by
  refine ⟨fun s => exec_selDeassert_eq_runAll, fun s => exec_selAssert_of_empty, fun s => exec_selAssert_of_stale,
    fun s hl hi => ?rearm, fun s hi hq hl => ?acquire, fun s u hq hl hop h => ?submit,
    fun s u hq hl hop h => ?receive⟩
  case rearm =>
    obtain ⟨hlock, hresult⟩ := s.rearmIn_takeLock
    obtain ⟨b, hb, hrelease⟩ := exec_rearm_outbound (exec_rearm_of hl hi) hlock hresult
    refine ⟨s.takeLock.advanceIn, b, ?_, ?_, hrelease⟩
    · rw [runAll_cons (exec_xdAcquire_of hl), runAll_singleton, exec_advanceIn_of rfl]
    · rw [← State.rearmIn_eq, hb]
  case acquire =>
    exact ⟨_, exec_xdAcquire_of hl, ⟨_, exec_submit_acquire hq hi hl⟩, ⟨_, exec_receive_acquire hq hi hl⟩⟩
  case submit =>
    obtain ⟨v, ok, hv, rfl, hx⟩ := exec_submit_of_runAll hq hl hop h
    rw [hx, ← State.enqueue_result hv]
    rfl
  case receive =>
    obtain ⟨v, r, hv, rfl, hx⟩ := exec_receive_of_runAll hq hl hop h
    refine ⟨_, hx, ?_⟩
    rw [← State.dequeue_result hv, ← State.dequeue_respFrame hv, ← State.dequeue_cfg hv]
    cases r with
    | none => exact ⟨rfl, nofun, fun _ => ⟨rfl, rfl⟩⟩
    | some f => exact ⟨rfl, fun g hg => ⟨rfl, by cases hg; rfl⟩, nofun⟩

end Sys2Proof.Machine
end

section
/-! SUPPORT. The ring pointer operations case by case (`40_ring_pointer_ops.md` R111 to R114): the whole next state
where the ring has room or a frame, where it has none, and no next state without the domain (R110). -/

namespace Sys2Proof.Machine

theorem ne_next_of_refused {x : Result} {r : Refusal} (h : x = .refused r) (t : State) : x ≠ .next t := by
  rw [h]; exact nofun

/-! ### `ENQUEUE` -/

/-- `ENQUEUE` into a ring with room: it answers `ok`, counts the frame, and leaves the bytes of `s` with the frame laid
down in its slot. -/
theorem exec_enqueue_room {s : State} (h : s.cfg.wf = true) (hl : s.lock = true)
    (hf : s.hcmd.frame.length = s.cfg.frameSize) (hd : s.during = []) (hn : s.outCount ≠ s.cfg.capacity) :
    ∃ t, exec .enqueue s = .next t ∧ (s.layFrame s.enqueueSlot s.hcmd.frame).SameBytes t ∧
      t = State.withResult (.ok true) { s with mem := t.mem, outCount := s.outCount + 1 } := by
  refine ⟨_, by rw [exec_enqueue_of hl, State.enqueue_alone h hf hd hn], ?_, ?_⟩
  · exact ⟨rfl, rfl, rfl⟩
  · rfl

theorem exec_enqueue_full {s : State} (hl : s.lock = true) (hn : s.outCount = s.cfg.capacity) :
    exec .enqueue s = .next (State.withResult (.ok false)
      (State.raise .outboundOverflow { s with during := [] })) := by
  rw [exec_enqueue_of hl, State.enqueue_full _ hn]

/-- Settles O20: the slot of R111 reads back the frame and no byte outside it changes; into a full ring nothing is
copied. -/
theorem enqueueStoresOrDrops : Obligations.EnqueueStoresOrDrops := by
  refine ⟨fun s hwf hl hf hd hn => ?room, fun s hl hn => exec_enqueue_full hl hn,
    fun s t hl => ne_next_of_refused (exec_enqueue_refused hl) t⟩
  case room =>
    have hslot : s.enqueueSlot < s.cfg.capacity := Nat.mod_lt _ (Config.wf_bounds hwf).2.1
    obtain ⟨t, hx, hb, ht⟩ := exec_enqueue_room hwf hl hf hd hn
    refine ⟨t, hx, ht, ?_, fun a ha => ?_⟩
    · exact (hb.readBytes _ _).trans (State.layFrame_slotFrame_same hwf hslot hf)
    · exact (hb.readByte a).trans (State.layFrame_readByte_other (hf ▸ ha))

/-! ### `DEQUEUE` -/

/-- The slot of R112 by the rule's own formula, whose difference may be negative before `CAPACITY` is added. -/
theorem State.dequeueSlot_eq {s : State} (h : s.inCount ≤ s.cfg.capacity) :
    s.dequeueSlot = (((s.inCursor : Int) - s.inCount + s.cfg.capacity) % s.cfg.capacity).toNat := by
  have hsum : (s.inCursor : Int) - s.inCount + s.cfg.capacity =
      ((s.inCursor + s.cfg.capacity - s.inCount : Nat) : Int) := by omega
  rw [hsum, ← Int.natCast_mod, Int.toNat_natCast, State.dequeueSlot]

/-- `DEQUEUE` from a ring that holds a frame: the bytes of its slot, and one frame less. -/
theorem exec_dequeue_some {s : State} (h : s.cfg.wf = true) (hl : s.lock = true) (hd : s.during = [])
    (hn : s.inCount ≠ 0) :
    exec .dequeue s = .next (State.withResult (.frame (some (s.slotFrame s.cfg.inBase s.dequeueSlot)))
      { s with inCount := s.inCount - 1 }) := by
  rw [exec_dequeue_of hl, State.dequeue_alone h hd hn]; rfl

theorem exec_dequeue_empty {s : State} (hl : s.lock = true) (hn : s.inCount = 0) :
    exec .dequeue s = .next (State.withResult (.frame none)
      (State.raise .inboundUnderflow { s with during := [] })) := by
  rw [exec_dequeue_of hl, State.dequeue_empty hn]

/-- Settles O21: the model's slot number is the rule's (`State.dequeueSlot_eq`). -/
theorem dequeueReturnsOldestOrNone : Obligations.DequeueReturnsOldestOrNone := by
  refine ⟨fun s hwf hl hd hn hle => ?some, fun s hl hn => exec_dequeue_empty hl hn,
    fun s t hl => ne_next_of_refused (exec_dequeue_refused hl) t⟩
  case some =>
    rw [exec_dequeue_some hwf hl hd hn.ne', State.dequeueSlot_eq hle]
    rfl

/-! ### `TRY_RESERVE_OUT` -/

/-- Settles O22: with a frame stored the cursor's slot is taken, with none the condition is raised. -/
theorem reserveTakesOldestSlotOrNone : Obligations.ReserveTakesOldestSlotOrNone := by
  intro s
  refine ⟨fun hl hn => ?some, fun hl hn => ?empty,
    fun t hl => ne_next_of_refused (exec_tryReserveOut_refused hl) t⟩
  case some =>
    simp only [exec_tryReserveOut_of hl, State.reservedSlot, State.reserveOut_eq, if_pos hn]
    rfl
  case empty =>
    simp only [exec_tryReserveOut_of hl, State.reservedSlot, State.reserveOut_eq, if_neg hn.not_gt]
    rfl

/-! ### `ADVANCE_IN` -/

/-- Settles O23: the cursor moves on both branches, the count on the one with room. -/
theorem advanceInSaturatesAndMoves : Obligations.AdvanceInSaturatesAndMoves := by
  intro s
  refine ⟨fun hl hn => ?room, fun hl hn => ?full, fun t hl => ne_next_of_refused (exec_advanceIn_refused hl) t⟩
  case room => simp only [exec_advanceIn_of hl, State.advanceIn_eq, if_neg hn]; rfl
  case full => simp only [exec_advanceIn_of hl, State.advanceIn_eq, if_pos hn]; rfl

end Sys2Proof.Machine
end

section
/-! SUPPORT. The engine's `REARM` as one full next state (`41_engine_controller.md` R130). -/

namespace Sys2Proof.Machine

/-- The new `OUT_COUNT` of `TRY_RESERVE_OUT` (R113), with the unchanged count of an empty ring written as 0. -/
theorem reservedCount_eq (n : Nat) : (if 0 < n then n - 1 else n) = if 0 < n then n - 1 else 0 :=
  ite_congr rfl (fun _ => rfl) Nat.eq_zero_of_not_pos

/-- Settles O24: granted, the next state is the one of `State.rearm_eq`, whose `LOCK` is the 0 it had before; without
the guard the word is refused. -/
theorem rearmAdvancesAndBinds : Obligations.RearmAdvancesAndBinds := by
  refine fun s => ⟨fun hl hi => ?next, fun t hg => ne_next_of_refused (exec_rearm_refused ?guard) t⟩
  case next =>
    rw [exec_rearm_of hl hi, State.rearm_eq, reservedCount_eq, ← hl]
    rfl
  case guard => rcases hg with hg | hg <;> simp [hg]

end Sys2Proof.Machine
end

section
/-! SUPPORT. `DETECT` case by case (`42_edge_handler.md` R146, R147, R157), and the order of the pending edges, which
every step keeps (R148). -/

namespace Sys2Proof.Machine

/-! ### `DETECT` -/

theorem State.edgeSeen_iff (s : State) :
    s.edgeSeen = true ↔ s.inited = true ∧ LinkPhase.ofLevel s.sel ≠ s.linkPhase := by
  rw [State.edgeSeen, Bool.and_eq_true, decide_eq_true_iff]; rfl

theorem State.detect_of_not_edgeSeen {s : State} (h : ¬ s.edgeSeen = true) : s.detect = s := if_neg h

/-- The line has risen and no assert is pending: the edge is remembered. -/
theorem State.detect_latches_assert {s : State} (h : s.edgeSeen = true) (hs : s.sel = true)
    (hp : s.pendA = false) : s.detect = { s with linkPhase := .active, pendA := true } := by
  simp [State.detect, State.inSel, h, hs, hp, LinkPhase.ofLevel]

/-- The line has fallen and no deassert is pending: the edge is remembered. -/
theorem State.detect_latches_deassert {s : State} (h : s.edgeSeen = true) (hs : s.sel = false)
    (hp : s.pendD = false) : s.detect = { s with linkPhase := .idle, pendD := true } := by
  simp [State.detect, State.inSel, h, hs, hp, LinkPhase.ofLevel]

/-- The line has risen while an assert is pending: the edge is lost (R147). -/
theorem State.detect_loses_assert {s : State} (h : s.edgeSeen = true) (hs : s.sel = true)
    (hp : s.pendA = true) : s.detect = State.loseEdge { s with linkPhase := .active } := by
  simp [State.detect, State.inSel, h, hs, hp, LinkPhase.ofLevel]

/-- The line has fallen while a deassert is pending: the edge is lost (R147). -/
theorem State.detect_loses_deassert {s : State} (h : s.edgeSeen = true) (hs : s.sel = false)
    (hp : s.pendD = true) : s.detect = State.loseEdge { s with linkPhase := .idle } := by
  simp [State.detect, State.inSel, h, hs, hp, LinkPhase.ofLevel]

/-- The master's turn at the line is the change and its `DETECT`, in the same step (R146). -/
theorem step_sel {s : State} {v : Bool} {rest : List Turn} (h : s.sched = .env (.sel v) :: rest) :
    step s = .next { s.begin rest with sel := v }.detect := step_turn h

/-- Settles O12: the five cases of `DETECT` at the start of the step, the line already at its new level. -/
theorem detectLatchesEdges : Obligations.DetectLatchesEdges := by
  intro s v rest hsched
  rw [step_sel hsched]
  have seen (hi : s.inited = true) (hne : LinkPhase.ofLevel v ≠ s.linkPhase) :
      State.edgeSeen { s.begin rest with sel := v } = true := (State.edgeSeen_iff _).2 ⟨hi, hne⟩
  have unseen (h : ¬ (s.inited = true ∧ LinkPhase.ofLevel v ≠ s.linkPhase)) :
      State.detect { s.begin rest with sel := v } = { s.begin rest with sel := v } :=
    State.detect_of_not_edgeSeen (mt (State.edgeSeen_iff _).1 h)
  refine ⟨fun hi => ?before, fun hi hp => ?same, ?rise, ?fall, ?riseLost, ?fallLost⟩
  case before => rw [unseen (by simp [hi])]; rfl
  case same => rw [unseen (by simp [hp])]; rfl
  case rise =>
    rintro hi hp rfl ha
    rw [State.detect_latches_assert (seen hi (by rw [hp]; decide)) rfl ha]; rfl
  case fall =>
    rintro hi hp rfl hd
    rw [State.detect_latches_deassert (seen hi (by rw [hp]; decide)) rfl hd]; rfl
  case riseLost =>
    rintro hi hp rfl ha
    rw [State.detect_loses_assert (seen hi (by rw [hp]; decide)) rfl ha]; rfl
  case fallLost =>
    rintro hi hp rfl hd
    rw [State.detect_loses_deassert (seen hi (by rw [hp]; decide)) rfl hd]; rfl

/-! ### The order of the pending edges: the steps outside the block -/

/-- A remembered edge is the last one, whose level `LINK_PHASE` takes; a lost one ends the claim. -/
theorem State.EdgesInOrder.detect {s : State} (h : s.EdgesInOrder) : s.detect.EdgesInOrder := by
  by_cases he : s.edgeSeen = true
  · cases hs : s.sel with
    | true =>
      cases hp : s.pendA with
      | false => rw [State.detect_latches_assert he hs hp]; exact fun _ => ⟨fun _ _ => rfl, fun _ => nofun⟩
      | true => rw [State.detect_loses_assert he hs hp]; exact nofun
    | false =>
      cases hp : s.pendD with
      | false => rw [State.detect_latches_deassert he hs hp]; exact fun _ => ⟨fun _ => nofun, fun _ _ => rfl⟩
      | true => rw [State.detect_loses_deassert he hs hp]; exact nofun
  · rw [State.detect_of_not_edgeSeen he]; exact h

theorem State.EdgesInOrder.masterSel {s : State} (h : s.EdgesInOrder) (v : Bool) :
    (s.masterSel v).EdgesInOrder :=
  State.EdgesInOrder.detect (s := { s with sel := v }) h

theorem State.EdgesInOrder.masterXchg {s : State} (h : s.EdgesInOrder) (m : Byte) :
    (s.masterXchg m).EdgesInOrder := by
  unfold State.masterXchg; split <;> exact h

/-- All that a step of the TX channel can do (R193). -/
theorem State.engineTx_ok {s t : State} (h : s.engineTx = .ok t) :
    (¬ s.txReady = true ∧ t = s) ∨
    (s.txReady = true ∧ ∃ b, s.loadByte (s.txAddr + (s.txLen - s.txRemain)) = .ok b ∧
      t = { s with txq := s.txq ++ [b], txRemain := s.txRemain - 1 }) := by
  unfold State.engineTx at h
  split at h
  · next hr =>
    split at h
    · cases h
    · next b hb => cases h; exact .inr ⟨hr, b, hb, rfl⟩
  · next hr => cases h; exact .inl ⟨hr, rfl⟩

/-- All that a step of the RX channel can do (R194). -/
theorem State.engineRx_ok {s t : State} (h : s.engineRx = .ok t) :
    (¬ s.rxReady = true ∧ t = s) ∨
    (s.rxReady = true ∧ ∃ b rest u, s.rxq = b :: rest ∧
      s.storeByte (s.rxAddr + (s.rxLen - s.rxRemain)) b = .ok u ∧
      t = { u with rxq := rest, rxRemain := u.rxRemain - 1 }) := by
  unfold State.engineRx at h
  split at h
  · next hr =>
    split at h
    · next hq => simp [State.rxReady, State.rxqEmpty, hq] at hr
    · next b rest hq =>
      split at h
      · cases h
      · next u hu => cases h; exact .inr ⟨hr, b, rest, u, hq, hu, rfl⟩
  · next hr => cases h; exact .inl ⟨hr, rfl⟩

/-- Neither channel touches the detector. -/
theorem State.EdgesInOrder.engineTx {s t : State} (h : s.EdgesInOrder) (ht : s.engineTx = .ok t) :
    t.EdgesInOrder := by
  rcases State.engineTx_ok ht with ⟨-, rfl⟩ | ⟨-, b, -, rfl⟩
  · exact h
  · exact h

theorem State.EdgesInOrder.engineRx {s t : State} (h : s.EdgesInOrder) (ht : s.engineRx = .ok t) :
    t.EdgesInOrder := by
  rcases State.engineRx_ok ht with ⟨-, rfl⟩ | ⟨-, b, rest, u, -, hu, rfl⟩
  · exact h
  · rw [(State.storeByte_ok hu).1]; exact h

theorem State.EdgesInOrder.envStep {s t : State} (h : s.EdgesInOrder) {e : EnvStep}
    (ht : Machine.envStep e s = .ok t) : t.EdgesInOrder := by
  cases e with
  | sel v => cases ht; exact h.masterSel v
  | pin l => cases ht; exact h.masterSel _
  | xchg m => cases ht; exact h.masterXchg m
  | txByte => exact h.engineTx ht
  | rxByte => exact h.engineRx ht

/-! ### The order of the pending edges: the operations -/

theorem stepsRespect_of_forall {p : EnvStep → State → Bool} (hp : ∀ e s, p e s = true) (es : List EnvStep)
    (s : State) : stepsRespect p es s = true := by
  induction es generalizing s with
  | nil => rfl
  | cons e es ih =>
    simp only [stepsRespect, hp, Bool.true_and]
    split
    · exact ih _
    · rfl

/-- No premise is needed for the order of the edges to be kept inside a frame copy. -/
theorem keptUnder_edgesInOrder : KeptUnder (fun _ _ => true) State.EdgesInOrder where
  reads _ _ _ _ := rfl
  step h _ ht := h.envStep ht
  store _ h := h

theorem State.EdgesInOrder.enqueue {s t : State} (h : s.EdgesInOrder) {f : Frame} {ok : Bool}
    (ht : s.enqueue f = .ok (t, ok)) : t.EdgesInOrder := by
  rcases State.enqueue_ok ht with ⟨-, -, rfl⟩ | ⟨-, -, u, hu, -, rfl⟩
  · exact h
  · exact (keptUnder_edgesInOrder.copyIn hu (stepsRespect_of_forall (fun _ _ => rfl) _ _) h :)

theorem State.EdgesInOrder.dequeue {s t : State} (h : s.EdgesInOrder) {r : Option Frame}
    (ht : s.dequeue = .ok (t, r)) : t.EdgesInOrder := by
  rcases State.dequeue_ok ht with ⟨-, -, rfl⟩ | ⟨-, u, f, hu, -, -, -, rfl⟩
  · exact h
  · exact (keptUnder_edgesInOrder.copyOut hu (stepsRespect_of_forall (fun _ _ => rfl) _ _) h :)

/-- With both events pending the service takes the older one, and the one left is that of the last edge (R148). -/
theorem State.EdgesInOrder.takeEvent {s : State} {e : Edge} (hc : s.serviceChoice = some e) :
    (State.takeEvent e s).EdgesInOrder := by
  obtain ⟨-, -, ⟨rfl, -, hd⟩ | ⟨rfl, -, ha⟩⟩ := State.serviceChoice_some hc
  · exact fun _ => ⟨nofun, fun hp _ => hd hp⟩
  · exact fun _ => ⟨fun hp _ => ha hp, nofun⟩

theorem State.EdgesInOrder.exec {s t : State} (h : s.EdgesInOrder) {i : Instr}
    (ht : Machine.exec i s = .next t) : t.EdgesInOrder := by
  cases i with
  | init => obtain ⟨-, -, rfl⟩ := exec_init_next ht; exact fun _ => ⟨nofun, nofun⟩
  | submit =>
    rcases exec_submit_next ht with ⟨-, -, -, rfl⟩ | ⟨-, -, -, u, ok, hu, rfl⟩
    · exact h
    · exact (h.enqueue hu :)
  | receive =>
    rcases exec_receive_next ht with ⟨-, -, -, rfl⟩ | ⟨-, -, -, u, r, hu, rfl⟩
    · exact h
    · cases r <;> exact (h.dequeue hu :)
  | selAssert =>
    obtain ⟨hc, rfl⟩ := exec_selAssert_next ht
    rw [State.handleAssert_eq]
    exact State.EdgesInOrder.takeEvent hc
  | selDeassert =>
    obtain ⟨hc, rfl⟩ := exec_selDeassert_next ht
    rw [State.handleDeassert_eq]
    exact State.EdgesInOrder.takeEvent hc
  | xdAcquire => obtain ⟨-, rfl⟩ := exec_xdAcquire_next ht; exact h
  | xdRelease => obtain ⟨-, rfl⟩ := exec_xdRelease_next ht; exact h
  | enqueue => obtain ⟨-, u, ok, hu, rfl⟩ := exec_enqueue_next ht; exact (h.enqueue hu :)
  | dequeue => obtain ⟨-, u, r, hu, rfl⟩ := exec_dequeue_next ht; exact (h.dequeue hu :)
  | tryReserveOut => obtain ⟨-, rfl⟩ := exec_tryReserveOut_next ht; rw [State.reserveOut_eq]; exact h
  | advanceIn => obtain ⟨-, rfl⟩ := exec_advanceIn_next ht; rw [State.advanceIn_eq]; exact h
  | rearm => obtain ⟨-, -, rfl⟩ := exec_rearm_next ht; rw [State.rearm_eq]; exact h
  | haltEngine => rw [exec_haltEngine_next ht]; exact h
  | drainRxq => rw [exec_drainRxq_next ht]; exact h
  | setTrig a b => rw [exec_setTrig_next ht]; exact h

theorem State.EdgesInOrder.prepared {s u : State} (h : s.EdgesInOrder) (hu : s.Prepared u) : u.EdgesInOrder := by
  obtain ⟨_, _, _, _, _, rfl⟩ := hu; exact h

theorem State.EdgesInOrder.blockMoves {s t : State} (h : s.EdgesInOrder) (ht : s.BlockMoves t) :
    t.EdgesInOrder := by
  obtain ⟨u, hu, rfl | ⟨i, hi⟩⟩ := ht
  · exact h.prepared hu
  · exact (h.prepared hu).exec hi

theorem State.edgesInOrder_resetOf (c : Config) : (State.resetOf c).EdgesInOrder := fun _ => ⟨nofun, nofun⟩

/-- Settles O45: the detector remembers only the last edge, a service takes only the older one, nothing else sets a
pending bit, and after a reset no bit is set. -/
theorem pendingEdgesStayInOrder : Obligations.PendingEdgesStayInOrder := by
  refine ⟨fun s t h hx => ?_, State.edgesInOrder_resetOf⟩
  rcases step_next hx with hb | ⟨e, c, he⟩ | ⟨c, rfl⟩
  · exact h.blockMoves hb
  · exact State.EdgesInOrder.envStep (s := s.begin c) h he
  · exact State.edgesInOrder_resetOf s.cfg

end Sys2Proof.Machine
end

section
/-! SUPPORT. The engine's operations of the edge handler and the two handlers, each as one full next state
(`42_edge_handler.md` R149 to R153). -/

namespace Sys2Proof.Machine

/-! ### `HALT_ENGINE`, `DRAIN_RXQ` and `SET_TRIG` -/

/-- Settles O25: with its enable at 0 a channel's step is not taken. -/
theorem haltStopsBothChannels : Obligations.HaltStopsBothChannels := by
  refine fun s => ⟨rfl, fun t ht => ?_⟩
  rw [exec_haltEngine_next ht]
  exact ⟨State.engineTx_disabled (.inl rfl), State.engineRx_disabled (.inl rfl)⟩

/-- Settles O26: `DRAIN_RXQ` has no guard, and `State.drainRxq` is this update. -/
theorem drainEmptiesReceiveQueue : Obligations.DrainEmptiesReceiveQueue := fun _ => rfl

/-- Settles O27: `SET_TRIG` has no guard, and `State.setTrig` is this update. -/
theorem setTrigWritesBothEnables : Obligations.SetTrigWritesBothEnables := fun _ _ _ => rfl

/-! ### The handlers -/

/-- Settles O28: in either case of the residual test the handler is the `SET_TRIG` of its expansion (R98), after the
event is taken and, on a stale queue, the condition raised. -/
theorem assertDefersOnStaleQueue : Obligations.AssertDefersOnStaleQueue :=
  fun _ hc => ⟨exec_selAssert_of_empty hc, exec_selAssert_of_stale hc⟩

/-- Settles O29: the handler is `State.handleDeassert_eq`, and the `LOCK` its rebind leaves at 0 was 0 before. -/
theorem deassertRebuildsTheBinding : Obligations.DeassertRebuildsTheBinding := by
  intro s hc
  obtain ⟨-, hl, -⟩ := State.serviceChoice_some hc
  rw [exec_selDeassert_of hc, State.handleDeassert_eq, reservedCount_eq, hl]
  rfl

end Sys2Proof.Machine
end

section
/-! SUPPORT. The two steps of `SUBMIT` and `RECEIVE` (`43_host_api.md` R166 to R168): each step's whole next state, and
the two turns one after the other. -/

namespace Sys2Proof.Machine

/-! ### `SUBMIT` -/

/-- `SUBMIT.body` into a ring with room: the bytes of `s` with the held frame laid down in its slot, one frame more,
and the domain released. -/
theorem exec_submit_room {s : State} (h : s.cfg.wf = true) (hq : s.hseq = .held) (hop : s.hcmd.op = .submit)
    (hl : s.lock = true) (hf : s.hcmd.frame.length = s.cfg.frameSize) (hd : s.during = [])
    (hn : s.outCount ≠ s.cfg.capacity) :
    ∃ t, exec .submit s = .next t ∧ (s.layFrame s.enqueueSlot s.hcmd.frame).SameBytes t ∧
      t = State.hostRelease { s with mem := t.mem, outCount := s.outCount + 1 } := by
  refine ⟨_, by rw [exec_submit_body hq hop hl, State.submitBody, State.enqueue_alone h hf hd hn]; rfl, ?_, ?_⟩
  · exact ⟨rfl, rfl, rfl⟩
  · rfl

/-- `SUBMIT.body` into a full ring: the frame is dropped and the domain released. -/
theorem exec_submit_full {s : State} (hq : s.hseq = .held) (hop : s.hcmd.op = .submit) (hl : s.lock = true)
    (hn : s.outCount = s.cfg.capacity) :
    exec .submit s = .next (State.raise .outboundOverflow { s with during := [] }).hostRelease := by
  rw [exec_submit_body hq hop hl, State.submitBody, State.enqueue_full _ hn]; rfl

/-- Settles O17: the port's frame is held, then the slot of R111 reads it back and no byte outside the slot changes;
into a full ring nothing is copied. -/
theorem submitAcquiresThenStoresOrDrops : Obligations.SubmitAcquiresThenStoresOrDrops := by
  refine ⟨fun s hi hq hl => exec_submit_acquire hq hi hl, fun s hwf hq hop hl hf hd hn => ?room,
    fun s hq hop hl hn => exec_submit_full hq hop hl hn⟩
  case room =>
    have hslot : s.enqueueSlot < s.cfg.capacity := Nat.mod_lt _ (Config.wf_bounds hwf).2.1
    obtain ⟨t, hx, hb, ht⟩ := exec_submit_room hwf hq hop hl hf hd hn
    refine ⟨t, hx, ht, ?_, fun a ha => ?_⟩
    · exact (hb.readBytes _ _).trans (State.layFrame_slotFrame_same hwf hslot hf)
    · exact (hb.readByte a).trans (State.layFrame_readByte_other (hf ▸ ha))

/-! ### `RECEIVE` -/

/-- `RECEIVE.body` from a ring that holds a frame: the bytes of its slot on the outputs, one frame less, and the domain
released. -/
theorem exec_receive_some {s : State} (h : s.cfg.wf = true) (hq : s.hseq = .held) (hop : s.hcmd.op = .receive)
    (hl : s.lock = true) (hd : s.during = []) (hn : s.inCount ≠ 0) :
    exec .receive s = .next (State.respond (some (s.slotFrame s.cfg.inBase s.dequeueSlot))
      { s with inCount := s.inCount - 1 }).hostRelease := by
  rw [exec_receive_body hq hop hl, State.receiveBody, State.dequeue_alone h hd hn]; rfl

/-- `RECEIVE.body` from an empty ring: the size 0, and the domain released. -/
theorem exec_receive_empty {s : State} (hq : s.hseq = .held) (hop : s.hcmd.op = .receive) (hl : s.lock = true)
    (hn : s.inCount = 0) :
    exec .receive s =
      .next (State.respond none (State.raise .inboundUnderflow { s with during := [] })).hostRelease := by
  rw [exec_receive_body hq hop hl, State.receiveBody, State.dequeue_empty hn]; rfl

/-- Settles O18: the operation is held, then the slot read is the rule's (`State.dequeueSlot_eq`). -/
theorem receiveAcquiresThenReturnsOldest : Obligations.ReceiveAcquiresThenReturnsOldest := by
  refine ⟨fun s hi hq hl => ⟨_, exec_receive_acquire hq hi hl, rfl, rfl⟩, fun s hwf hq hop hl hd hn hle => ?some,
    fun s hq hop hl hn => exec_receive_empty hq hop hl hn⟩
  case some =>
    rw [exec_receive_some hwf hq hop hl hd hn.ne', State.dequeueSlot_eq hle]
    rfl

end Sys2Proof.Machine
end

section
/-! SUPPORT. The host's two turns (`43_host_api.md` R168 to R170): what becomes of a word on the port, whether or not an
operation is held, and of the `.body` turn. -/

namespace Sys2Proof

/-- R92: the three operations of format `HOST`. -/
theorem Instr.format_eq_host_iff {i : Instr} : i.format = .host ↔ i = .init ∨ i = .submit ∨ i = .receive := by
  cases i <;> simp [Instr.format]

/-- The words of format `HOST` are the three of R170 (c). -/
theorem format_ne_host_of_decode {w : OpWord} {i : Instr} (h : decode w = .ok i) (h₁ : w ≠ 0x04) (h₂ : w ≠ 0x08)
    (h₃ : w ≠ 0x0C) : i.format ≠ .host := by
  have hw : encode i = w := encode_of_decode h
  intro hi
  rcases Instr.format_eq_host_iff.1 hi with rfl | rfl | rfl
  · exact h₁ hw.symm
  · exact h₂ hw.symm
  · exact h₃ hw.symm

end Sys2Proof

namespace Sys2Proof.Machine

/-! ### A word on the port -/

/-- The host's turn at the port: the word is there when it is accepted or refused. -/
theorem step_cmd {s : State} {w : OpWord} {f : Nat} {rest : List Turn} (h : s.sched = .cmd w f :: rest) :
    step s = acceptCommand ((s.begin rest).present w f) := step_turn h

theorem acceptCommand_held {s : State} {i : Instr} (hq : s.hseq = .held) (h : decode s.cmd = .ok i)
    (hi : i.format = .host) : acceptCommand s = presentWhileHeld i s := by
  simp only [acceptCommand, h, hi, hq, if_true]

theorem acceptCommand_reserved {s : State} (h : (decode s.cmd).toOption = none) :
    acceptCommand s = .refused (.reservedWord s.cmd) := by
  cases hd : decode s.cmd with
  | error e => simp only [acceptCommand, hd]
  | ok i => simp [hd, Except.toOption] at h

theorem acceptCommand_notHost {s : State} {i : Instr} (h : decode s.cmd = .ok i) (hi : i.format ≠ .host) :
    acceptCommand s = .refused (.notHostWord s.cmd) := by
  simp only [acceptCommand, h, if_neg hi]

/-- What is refused both when no operation is held and when one is, is refused. -/
theorem acceptCommand_refused {s : State} {i : Instr} {r : Refusal} (h : decode s.cmd = .ok i)
    (hi : i.format = .host) (hidle : s.hseq = .idle → exec i s = .refused r)
    (hheld : presentWhileHeld i s = .refused r) : acceptCommand s = .refused r := by
  cases hq : s.hseq with
  | idle => rw [acceptCommand_idle hq h hi, hidle hq]
  | held => rw [acceptCommand_held hq h hi, hheld]

/-! ### What R170 refuses -/

theorem exec_submit_beforeInit {s : State} (hi : s.inited = false) (hq : s.hseq = .idle) :
    exec .submit s = .refused (.beforeInit "SUBMIT") := by simp [exec, execSubmit, hi, hq]

theorem exec_receive_beforeInit {s : State} (hi : s.inited = false) (hq : s.hseq = .idle) :
    exec .receive s = .refused (.beforeInit "RECEIVE") := by simp [exec, execReceive, hi, hq]

theorem exec_init_second {s : State} (hi : s.inited = true) : exec .init s = .refused .secondInit := if_pos hi

theorem presentWhileHeld_beforeInit {s : State} {i : Instr} (hi : s.inited = false) (hn : i ≠ .init) :
    presentWhileHeld i s = .refused (.beforeInit i.mnemonic) := by simp [presentWhileHeld, hi, hn]

theorem presentWhileHeld_second {s : State} (hi : s.inited = true) :
    presentWhileHeld .init s = .refused .secondInit := by simp [presentWhileHeld, hi]

/-- Settles O6: `SUBMIT` and `RECEIVE` before `INIT` and a second `INIT` are refused whether or not an operation is
held, and every other word before that is asked. -/
theorem refusedCommands : Obligations.RefusedCommands := by
  intro s w f rest hs
  rw [step_cmd hs]
  refine ⟨?submit, ?receive, ?init, fun h₁ h₂ h₃ => ⟨fun hd => ?reserved, fun hd => ?other⟩⟩
  case submit =>
    rintro hi rfl
    exact acceptCommand_refused (s := (s.begin rest).present _ f) (decode_encode .submit) rfl
      (exec_submit_beforeInit hi) (presentWhileHeld_beforeInit hi nofun)
  case receive =>
    rintro hi rfl
    exact acceptCommand_refused (s := (s.begin rest).present _ f) (decode_encode .receive) rfl
      (exec_receive_beforeInit hi) (presentWhileHeld_beforeInit hi nofun)
  case init =>
    rintro hi rfl
    exact acceptCommand_refused (s := (s.begin rest).present _ f) (decode_encode .init) rfl
      (fun _ => exec_init_second hi) (presentWhileHeld_second hi)
  case reserved => exact acceptCommand_reserved (s := (s.begin rest).present w f) hd
  case other =>
    cases hw : decode w with
    | error e => exact absurd (congrArg Except.toOption hw) hd
    | ok i =>
      exact acceptCommand_notHost (s := (s.begin rest).present w f) hw (format_ne_host_of_decode hw h₁ h₂ h₃)

/-! ### What is let pass while an operation is held -/

theorem presentWhileHeld_passes {s : State} {i : Instr} (h : i = .init ↔ s.inited = false) :
    presentWhileHeld i s = .next s := by
  cases hi : s.inited <;> simp [presentWhileHeld, h, hi]

/-- Settles O7: none of the three words is refused in its case, and a word let pass leaves only the port's inputs. -/
theorem noCommandWhileHeld : Obligations.NoCommandWhileHeld := by
  intro s w f rest hs hq hw
  have passes {i : Instr} (hi : i.format = .host) (hp : i = .init ↔ s.inited = false) (hd : decode w = .ok i) :
      step s = .next ((s.begin rest).present w f) :=
    (step_cmd hs).trans ((acceptCommand_held (s := (s.begin rest).present w f) hq hd hi).trans
      (presentWhileHeld_passes hp))
  rcases hw with ⟨hi, rfl | rfl⟩ | ⟨hi, rfl⟩
  · exact passes rfl (by simp [hi]) (decode_encode .submit)
  · exact passes rfl (by simp [hi]) (decode_encode .receive)
  · exact passes rfl (by simp [hi]) (decode_encode .init)

/-! ### A command and an event at once -/

theorem contendTurn_of_some {s : State} {e : Edge} (w : OpWord) (f : Nat) (h : s.serviceChoice = some e) :
    contendTurn w f s = exec e.instr { s with sched := .cmd w f :: s.sched } := by
  simp only [contendTurn, h]

theorem contendTurn_of_none {s : State} (w : OpWord) (f : Nat) (h : s.serviceChoice = none) :
    contendTurn w f s = acceptCommand (s.present w f) := by
  simp only [contendTurn, h]

/-- Settles O10: an enabled service runs its handler with the command put back first in the schedule; otherwise the
turn is the command's own. -/
theorem eventGoesBeforeCommand : Obligations.EventGoesBeforeCommand := by
  intro s w f rest hs
  have event {e : Edge} (hc : s.serviceChoice = some e) :
      step s = exec e.instr { s.begin rest with sched := .cmd w f :: rest } :=
    (step_turn hs).trans (contendTurn_of_some (s := s.begin rest) w f hc)
  refine ⟨event, event, fun hc => ?none⟩
  case none =>
    calc
      step s = acceptCommand ((s.begin rest).present w f) :=
        (step_turn hs).trans (contendTurn_of_none (s := s.begin rest) w f hc)
      _ = step { s with sched := .cmd w f :: rest } := (step_cmd (s := { s with sched := .cmd w f :: rest }) rfl).symm

/-! ### The `.body` turn -/

/-- The held operation runs, whichever it is, with the turn's steps inside its copy. -/
theorem step_body {s : State} {d : List (List EnvStep)} {rest : List Turn} (hs : s.sched = .body d :: rest)
    (hq : s.hseq = .held) (hl : s.lock = true) :
    step s = exec s.hcmd.op.instr { s.begin rest with during := d } := by
  have hen : State.bodyEnabled (s.begin rest) = true := by simp [State.bodyEnabled, hq, hl]
  rw [step_turn hs]
  exact if_pos hen

/-- Settles O11: the operation held is the one `HCMD` names (`step_body`). -/
theorem bodyStepRunsTheHeldOperation : Obligations.BodyStepRunsTheHeldOperation := by
  intro s d rest hs
  refine ⟨fun hq hl hop => ?submit, fun hq hl hop => ?receive⟩
  case submit => rw [step_body hs hq hl, hop]; rfl
  case receive => rw [step_body hs hq hl, hop]; rfl

/-! ### Both turns -/

theorem State.enqueue_sched {s t : State} {f : Frame} {ok : Bool} (h : s.enqueue f = .ok (t, ok)) :
    t.sched = s.sched := by
  rcases State.enqueue_ok h with ⟨-, -, rfl⟩ | ⟨-, -, u, -, hk, rfl⟩
  · rfl
  · exact hk.sched

theorem State.dequeue_sched {s t : State} {r : Option Frame} (h : s.dequeue = .ok (t, r)) :
    t.sched = s.sched := by
  rcases State.dequeue_ok h with ⟨-, -, rfl⟩ | ⟨-, u, f, -, hk, -, -, rfl⟩
  · rfl
  · exact hk.sched

theorem HostOp.instr_format (o : HostOp) : o.instr.format = .host := by cases o <;> rfl

/-- Where none is held, either operation is held by its first step. -/
theorem exec_acquire {s : State} (o : HostOp) (hi : s.inited = true) (hq : s.hseq = .idle) (hl : s.lock = false) :
    ∃ c, exec o.instr s = .next (State.hostAcquire c s) := by
  cases o with
  | submit => exact ⟨_, exec_submit_acquire hq hi hl⟩
  | receive => exact ⟨_, exec_receive_acquire hq hi hl⟩

/-- The acquiring turn of either operation, under the invariant: presented while none is held, it is held, the rest of
the schedule follows, and the invariant holds. -/
theorem State.Inv.step_acquire {s : State} (h : s.Inv) (hi : s.inited = true) (hq : s.hseq = .idle) {w : OpWord}
    (hw : w = 0x08 ∨ w = 0x0C) {f : Nat} {rest : List Turn} (hs : s.sched = .cmd w f :: rest) :
    ∃ u, step s = .next u ∧ u.Inv ∧ u.hseq = .held ∧ u.lock = true ∧ u.sched = rest := by
  have hl : s.lock = false :=
    Bool.eq_false_of_not_eq_true fun hl => nomatch hq.symm.trans (h.host.lock_held hl)
  have hword : ∃ o : HostOp, decode w = .ok o.instr := by
    rcases hw with rfl | rfl
    · exact ⟨.submit, decode_encode .submit⟩
    · exact ⟨.receive, decode_encode .receive⟩
  obtain ⟨o, ho⟩ := hword
  obtain ⟨c, hc⟩ := exec_acquire (s := (s.begin rest).present w f) o hi hq hl
  have hu := (stepRunsTheHostCommand s w f rest _ hs hq ho o.instr_format).trans hc
  exact ⟨_, hu, stepKeepsInvariant s _ h hu, rfl, rfl, rfl⟩

/-- The operation held ends, whatever other agents do inside its copy, and leaves the schedule. -/
theorem State.Inv.exec_held {s : State} (h : s.Inv) (hq : s.hseq = .held) :
    ∃ t, Machine.exec s.hcmd.op.instr s = .next t ∧ t.hseq = .idle ∧ t.lock = false ∧ t.sched = s.sched := by
  have hl := h.host.held_lock hq
  cases hop : s.hcmd.op with
  | submit =>
    obtain ⟨u, ok, hu⟩ := h.enqueue_succeeds h.host.frame
    refine ⟨u.hostRelease, ?_, rfl, rfl, (State.enqueue_sched hu :)⟩
    rw [HostOp.instr, exec_submit_body hq hop hl, State.submitBody, hu]; rfl
  | receive =>
    obtain ⟨u, r, hu⟩ := h.dequeue_succeeds
    refine ⟨(State.respond r u).hostRelease, ?_, rfl, rfl, ?_⟩
    · rw [HostOp.instr, exec_receive_body hq hop hl, State.receiveBody, hu]; rfl
    · rw [← State.dequeue_sched hu]; cases r <;> rfl

/-- Settles O19: the first turn holds the operation under the invariant, and under it the held operation ends. -/
theorem hostOperationEndsInTwoSteps : Obligations.HostOperationEndsInTwoSteps := by
  intro s w f d rest h hi hq hw hs
  obtain ⟨u, hu, hinv, hheld, hlock, hsched⟩ := h.step_acquire hi hq hw hs
  have hrest : ∀ t ∈ rest, t.isAgents = true := (List.forall_mem_cons.1 (hsched ▸ hinv.agents)).2
  have hbody : State.Inv { u.begin rest with during := d } := hinv.update (agents := fun _ => hrest)
  obtain ⟨t, ht, hidle, hfree, hleft⟩ := hbody.exec_held hheld
  exact ⟨u, t, hu, hheld, hlock, (step_body hsched hheld hlock).trans ht, hidle, hfree, hleft⟩

end Sys2Proof.Machine
end

section
/-! SUPPORT. `INIT` as one full next state (`43_host_api.md` R165). -/

namespace Sys2Proof.Machine

theorem LinkPhase.ofLevel_eq (b : Bool) : LinkPhase.ofLevel b = if b then .active else .idle := by cases b <;> rfl

/-- Settles O16: the next state is the one of `State.initialised_eq`, whose inbound address is that of slot 0. -/
theorem initPrimesTheBlock : Obligations.InitPrimesTheBlock := by
  refine fun s => ⟨fun hi hq => ?next, exec_init_second⟩
  case next =>
    rw [exec_init_of hi hq, State.initialised_eq, LinkPhase.ofLevel_eq, Nat.zero_mul, Nat.add_zero]

end Sys2Proof.Machine
end

section
/-! SUPPORT. The exclusion domain (`44_exclusion_domain.md`): taking and releasing it (R180, R181), and what it does not
withhold (R182). -/

namespace Sys2Proof.Machine

/-- Settles O14: `State.takeLock` is this update. -/
theorem acquireSetsLock : Obligations.AcquireSetsLock :=
  fun _ => ⟨exec_xdAcquire_of, fun t hl => ne_next_of_refused (exec_xdAcquire_refused hl) t⟩

/-- A pending event is serviced as soon as the block is initialised and the domain free. -/
theorem State.serviceChoice_ne_none {s : State} (hi : s.inited = true) (hl : s.lock = false)
    (hp : s.pendA = true ∨ s.pendD = true) : s.serviceChoice ≠ none := by
  rw [State.serviceChoice, if_pos ⟨hi, hl⟩, State.oldestPending]
  cases ha : s.pendA <;> cases hd : s.pendD
  · simp [ha, hd] at hp
  · nofun
  · nofun
  · cases s.linkPhase <;> nofun

/-- Settles O15: `State.dropLock` is this update, and the event's service is then enabled
(`State.serviceChoice_ne_none`). -/
theorem releaseClearsLock : Obligations.ReleaseClearsLock := fun _ =>
  ⟨exec_xdRelease_of, fun t hl => ne_next_of_refused (exec_xdRelease_refused hl) t,
    fun hi hp => State.serviceChoice_ne_none hi rfl hp⟩

/-! ### The steps outside the block, whatever `LOCK` is -/

theorem State.detect_lock (s : State) (b : Bool) :
    State.detect { s with lock := b } = { s.detect with lock := b } := by
  rw [State.detect_eq, State.detect_eq]; rfl

theorem State.masterSel_lock (s : State) (v b : Bool) :
    State.masterSel v { s with lock := b } = { s.masterSel v with lock := b } :=
  State.detect_lock { s with sel := v } b

theorem State.masterXchg_lock (s : State) (m : Byte) (b : Bool) :
    State.masterXchg m { s with lock := b } = { s.masterXchg m with lock := b } := by
  simp only [State.masterXchg]
  split <;> rfl

theorem State.engineTx_of_ready {s : State} {x : Byte} (hr : s.txReady = true)
    (hx : s.loadByte (s.txAddr + (s.txLen - s.txRemain)) = .ok x) :
    s.engineTx = .ok { s with txq := s.txq ++ [x], txRemain := s.txRemain - 1 } := by
  simp only [State.engineTx, if_pos hr, hx]

theorem State.engineRx_of_ready {s u : State} {x : Byte} {rest : List Byte} (hr : s.rxReady = true)
    (hq : s.rxq = x :: rest) (hu : s.storeByte (s.rxAddr + (s.rxLen - s.rxRemain)) x = .ok u) :
    s.engineRx = .ok { u with rxq := rest, rxRemain := u.rxRemain - 1 } := by
  simp only [State.engineRx, if_pos hr, hq, hu]

theorem State.storeByte_lock {s t : State} {a : Nat} {x : Byte} (b : Bool) (h : s.storeByte a x = .ok t) :
    State.storeByte { s with lock := b } a x = .ok { t with lock := b } := by
  obtain ⟨rfl, hlt, hz⟩ := State.storeByte_ok h
  exact State.storeByte_of_lt hlt hz

theorem State.engineTx_lock {s t : State} (b : Bool) (h : s.engineTx = .ok t) :
    State.engineTx { s with lock := b } = .ok { t with lock := b } := by
  rcases State.engineTx_ok h with ⟨hr, rfl⟩ | ⟨hr, x, hx, rfl⟩
  · exact if_neg hr
  · exact State.engineTx_of_ready (s := { s with lock := b }) hr hx

theorem State.engineRx_lock {s t : State} (b : Bool) (h : s.engineRx = .ok t) :
    State.engineRx { s with lock := b } = .ok { t with lock := b } := by
  rcases State.engineRx_ok h with ⟨hr, rfl⟩ | ⟨hr, x, rest, u, hq, hu, rfl⟩
  · exact if_neg hr
  · exact State.engineRx_of_ready (s := { s with lock := b }) hr hq (State.storeByte_lock b hu)

/-- No step of an agent outside the block reads `LOCK`. -/
theorem envStep_lock {e : EnvStep} {s t : State} (b : Bool) (h : envStep e s = .ok t) :
    envStep e { s with lock := b } = .ok { t with lock := b } := by
  cases e with
  | sel v => cases h; exact congrArg Except.ok (s.masterSel_lock v b)
  | pin l => cases h; exact congrArg Except.ok (s.masterSel_lock _ b)
  | xchg m => cases h; exact congrArg Except.ok (s.masterXchg_lock m b)
  | txByte => exact State.engineTx_lock b h
  | rxByte => exact State.engineRx_lock b h

/-- Settles O13: while `LOCK = 1` no event is chosen and the two handlers and `REARM` are refused; the steps outside the
block do not read `LOCK` (`envStep_lock`). -/
theorem lockWithholdsOnlyTheHandler : Obligations.LockWithholdsOnlyTheHandler := by
  refine ⟨fun s rest hl hs => ?service, fun s t hl => ⟨?_, ?_, ?_⟩, fun e s t b h => envStep_lock b h⟩
  case service =>
    obtain ⟨-, hservice, -⟩ := disabledTurnsChangeNothing s rest
    exact hservice hs (.inr (.inl hl))
  · exact ne_next_of_refused (exec_selAssert_refused (State.serviceChoice_ne_asserted (.inr (.inl hl)))) t
  · exact ne_next_of_refused (exec_selDeassert_refused (State.serviceChoice_ne_deasserted (.inr (.inl hl)))) t
  · exact ne_next_of_refused (exec_rearm_refused (by simp [hl])) t

end Sys2Proof.Machine
end

section
/-! SUPPORT. A host operation and a `SEL_DEASSERT` that meet (`44_exclusion_domain.md` R185): what each does to
the counts and the outbound binding, with nothing inside the operation's copy, and both orders of the two. -/

namespace Sys2Proof.Machine

/-! ### The deassert event -/

/-- The state after `SEL_DEASSERT` (R150). -/
def State.deasserted (s : State) : State := (State.takeEvent .deasserted s).handleDeassert

theorem exec_selDeassert_deasserted {s : State} (h : s.serviceChoice = some .deasserted) :
    exec .selDeassert s = .next s.deasserted := exec_selDeassert_of h

theorem State.sameBytes_deasserted (s : State) : s.SameBytes s.deasserted :=
  (s.sameBytes_takeEvent _).trans (State.sameBytes_handleDeassert _)

theorem State.deasserted_txAddr (s : State) :
    s.deasserted.txAddr = if 0 < s.outCount then slotAddr s.cfg s.cfg.outBase s.outCursor else s.cfg.zeroBase := by
  rw [State.deasserted, State.handleDeassert_eq]; rfl

theorem State.deasserted_outCount (s : State) : s.deasserted.outCount = s.outCount - 1 := by
  have h : s.deasserted.outCount = if 0 < s.outCount then s.outCount - 1 else s.outCount := by
    rw [State.deasserted, State.handleDeassert_eq]; rfl
  rw [h]; split <;> omega

theorem State.deasserted_inCount (s : State) :
    s.deasserted.inCount = if s.inCount = s.cfg.capacity then s.inCount else s.inCount + 1 := by
  rw [State.deasserted, State.handleDeassert_eq]; rfl

/-! ### A host operation with nothing between or inside its steps -/

/-- Where either host operation can run with nothing inside its copy. -/
structure State.TakesCommand (s : State) : Prop where
  cfg : s.cfg.wf = true
  inited : s.inited = true
  idle : s.hseq = .idle
  unlocked : s.lock = false
  alone : s.during = []

/-- An enabled service finds the domain free. -/
theorem State.Inv.takesCommand {s : State} (h : s.Inv) (hq : s.hseq = .idle) (hd : s.during = [])
    {e : Edge} (hc : s.serviceChoice = some e) : s.TakesCommand :=
  let ⟨hi, hl, _⟩ := State.serviceChoice_some hc
  ⟨h.cfg, hi, hq, hl, hd⟩

theorem State.TakesCommand.deasserted {s : State} (h : s.TakesCommand) : s.deasserted.TakesCommand := by
  rw [State.deasserted, State.handleDeassert_eq]
  exact ⟨h.cfg, h.inited, h.idle, rfl, h.alone⟩

/-- With the domain free after a host operation as before it, the service choice depends on the pending events alone. -/
theorem State.serviceChoice_congr {s t : State} (hs : s.lock = false) (ht : t.lock = false)
    (hi : t.inited = s.inited) (hp : t.oldestPending = s.oldestPending) : t.serviceChoice = s.serviceChoice := by
  rw [State.serviceChoice, State.serviceChoice, hs, ht, hi, hp]

/-- `SUBMIT` counts its frame unless the ring is full, stores it where there is room, and leaves the cursor, the binding
and the pending events alone. -/
theorem State.TakesCommand.submit {s : State} (h : s.TakesCommand) :
    ∃ b c, exec .submit s = .next b ∧ exec .submit b = .next c ∧ c.serviceChoice = s.serviceChoice ∧
      c.outCursor = s.outCursor ∧ c.txAddr = s.txAddr ∧
      c.outCount = (if s.outCount = s.cfg.capacity then s.outCount else s.outCount + 1) ∧
      (s.outCount ≠ s.cfg.capacity →
        c.readBytes (slotAddr s.cfg s.cfg.outBase s.enqueueSlot) s.cfg.frameSize = s.portOperand) := by
  obtain ⟨hwf, hi, hq, hl, hd⟩ := h
  have hx := exec_submit_acquire hq hi hl
  by_cases hn : s.outCount = s.cfg.capacity
  · exact ⟨_, _, hx, exec_submit_full rfl rfl rfl hn, State.serviceChoice_congr hl rfl rfl rfl, rfl, rfl,
      (if_pos hn).symm, fun hr => absurd hn hr⟩
  · have hf : s.portOperand.length = s.cfg.frameSize := length_portFrame _ _
    obtain ⟨c, hy, hb, hc⟩ := exec_submit_room (s := State.hostAcquire ⟨.submit, s.portOperand⟩ s)
      hwf rfl rfl rfl hf hd hn
    refine ⟨_, c, hx, hy, ?choice, ?cursor, ?binding, ?count, fun _ => ?frame⟩
    case choice => rw [hc]; exact State.serviceChoice_congr hl rfl rfl rfl
    case cursor => rw [hc]; rfl
    case binding => rw [hc]; rfl
    case count => rw [hc, if_neg hn]; rfl
    case frame =>
      exact (hb.readBytes _ _).trans (State.layFrame_slotFrame_same hwf (Nat.mod_lt _ (Config.wf_bounds hwf).2.1) hf)

/-- `RECEIVE` takes a frame off the count unless the ring is empty, and leaves the pending events alone. -/
theorem State.TakesCommand.receive {s : State} (h : s.TakesCommand) :
    ∃ b c, exec .receive s = .next b ∧ exec .receive b = .next c ∧ c.serviceChoice = s.serviceChoice ∧
      c.inCount = s.inCount - 1 := by
  obtain ⟨hwf, hi, hq, hl, hd⟩ := h
  have hx := exec_receive_acquire hq hi hl
  by_cases hn : s.inCount = 0
  · refine ⟨_, _, hx, exec_receive_empty rfl rfl rfl hn, State.serviceChoice_congr hl rfl rfl rfl, ?count⟩
    case count => rw [hn]; exact hn
  · exact ⟨_, _, hx, exec_receive_some hwf rfl rfl rfl hd hn, State.serviceChoice_congr hl rfl rfl rfl, rfl⟩

/-! ### Both orders -/

/-- Settles O54: after the event the ring has room, so the frame is counted; before it the frame is counted unless the
ring is full, and into an empty ring it goes to the slot the event then binds. -/
theorem submitAndDeassertSerialise : Obligations.SubmitAndDeassertSerialise := by
  intro s h hq hd hc
  have hcap := (Config.wf_bounds h.cfg).2.1
  have hs := h.takesCommand hq hd hc
  refine ⟨?eventFirst, ?commandFirst⟩
  case eventFirst =>
    obtain ⟨b, c, hb, hx, -, -, htx, hcount, -⟩ := hs.deasserted.submit
    have hroom : s.deasserted.outCount ≠ s.deasserted.cfg.capacity := by
      have hle := h.rings.outCount
      rw [s.deasserted_outCount, s.sameBytes_deasserted.cfg]
      omega
    refine ⟨_, b, c, exec_selDeassert_deasserted hc, hb, hx, ?_, fun hempty => ?_⟩
    · rw [hcount, if_neg hroom, s.deasserted_outCount]
    · rw [htx, s.deasserted_txAddr, if_neg (by omega)]
  case commandFirst =>
    obtain ⟨a, b, ha, hx, hchoice, hcur, -, hcount, hframe⟩ := hs.submit
    have hcfg : b.cfg = s.cfg := (exec_cfg hx).trans (exec_cfg ha)
    refine ⟨a, b, _, ha, hx, exec_selDeassert_deasserted (hchoice.trans hc), ?_, fun hempty => ?_⟩
    · rw [b.deasserted_outCount, hcount]
      split <;> omega
    · have hroom : s.outCount ≠ s.cfg.capacity := by omega
      have hslot : s.enqueueSlot = s.outCursor := by
        rw [State.enqueueSlot, hempty, Nat.add_zero, Nat.mod_eq_of_lt h.rings.outCursor]
      have htx : b.deasserted.txAddr = slotAddr s.cfg s.cfg.outBase s.outCursor := by
        rw [b.deasserted_txAddr, hcount, if_neg hroom, if_pos (Nat.succ_pos _), hcfg, hcur]
      refine ⟨htx, ?_⟩
      rw [htx, b.sameBytes_deasserted.readBytes, b.sameBytes_deasserted.cfg, hcfg, ← hslot]
      exact hframe hroom

/-- Settles O55: the event counts the bound slot's frame up to a full ring and `RECEIVE` takes one off; in the other
order the ring the event finds has room. -/
theorem receiveAndDeassertSerialise : Obligations.ReceiveAndDeassertSerialise := by
  intro s h hq hd hc
  have hcap := (Config.wf_bounds h.cfg).2.1
  have hle := h.rings.inCount
  have hs := h.takesCommand hq hd hc
  refine ⟨?eventFirst, ?commandFirst⟩
  case eventFirst =>
    obtain ⟨b, c, hb, hx, -, hcount⟩ := hs.deasserted.receive
    refine ⟨_, b, c, exec_selDeassert_deasserted hc, hb, hx, ?_⟩
    rw [hcount, s.deasserted_inCount]
    split <;> omega
  case commandFirst =>
    obtain ⟨a, b, ha, hx, hchoice, hcount⟩ := hs.receive
    have hcfg : b.cfg = s.cfg := (exec_cfg hx).trans (exec_cfg ha)
    refine ⟨a, b, _, ha, hx, exec_selDeassert_deasserted (hchoice.trans hc), ?_⟩
    rw [b.deasserted_inCount, hcount, hcfg, if_neg (by omega)]

end Sys2Proof.Machine
end

section
/-! SUPPORT. The agents outside the block, one byte at a time (`45_environment.md` R192, R193, R194). -/

namespace Sys2Proof.Machine

/-! ### The channels and the master -/

theorem State.txReady_iff (s : State) :
    s.txReady = true ↔ s.txTrigEn = true ∧ 0 < s.txRemain ∧ s.txq.length < s.cfg.txqDepth := by
  simp only [State.txReady, Bool.and_eq_true, decide_eq_true_eq, and_assoc]

theorem State.rxReady_iff (s : State) :
    s.rxReady = true ↔ s.rxTrigEn = true ∧ 0 < s.rxRemain ∧ s.rxq ≠ [] := by
  simp [State.rxReady, State.rxqEmpty, and_assoc]

/-- R193: a byte moves from an address that exists. -/
theorem State.engineTx_moves {s : State} (hr : s.txReady = true)
    (ha : s.txAddr + (s.txLen - s.txRemain) < 2 ^ s.cfg.addrW) :
    s.engineTx = .ok { s with
      txq := s.txq ++ [s.readByte (s.txAddr + (s.txLen - s.txRemain))]
      txRemain := s.txRemain - 1 } :=
  State.engineTx_of_ready hr (State.loadByte_of_lt ha)

/-- R194: a byte moves to an address that exists outside `ZERO`. -/
theorem State.engineRx_moves {s : State} {b : Byte} {q : List Byte} (hen : s.rxTrigEn = true)
    (hn : 0 < s.rxRemain) (hq : s.rxq = b :: q) (ha : s.rxAddr + (s.rxLen - s.rxRemain) < 2 ^ s.cfg.addrW)
    (hz : s.cfg.inZero (s.rxAddr + (s.rxLen - s.rxRemain)) = false) :
    s.engineRx = .ok { s with
      mem := Memory.write s.mem (s.rxAddr + (s.rxLen - s.rxRemain)) b
      rxq := q
      rxRemain := s.rxRemain - 1 } :=
  State.engineRx_of_ready (s.rxReady_iff.2 ⟨hen, hn, by simp [hq]⟩) hq (State.storeByte_of_lt ha hz)

theorem State.masterXchg_asserted (m : Byte) {s : State} (h : s.sel = true) :
    s.masterXchg m = { s with
      masterLog := s.masterLog ++ [s.outByte]
      txq := s.txq.tail
      draws := if s.txqEmpty then s.draws + 1 else s.draws
      rxq := if s.rxq.length < s.cfg.rxqDepth then s.rxq ++ [m] else s.rxq } := if_pos h

theorem State.outByte_of_cons {s : State} {b : Byte} {q : List Byte} (h : s.txq = b :: q) : s.outByte = b := by
  rw [State.outByte, h]

/-- Settles O33: a ready channel stages the byte it loads (`State.engineTx_moves`); otherwise its step is not taken. -/
theorem txChannelMovesOneByte : Obligations.TxChannelMovesOneByte :=
  fun s => ⟨fun hen hn hq ha => State.engineTx_moves (s.txReady_iff.2 ⟨hen, hn, hq⟩) ha, State.engineTx_disabled⟩

/-- Settles O34: a ready channel stores the head of its queue (`State.engineRx_moves`), which reads back there and leaves
every other address alone; otherwise its step is not taken. -/
theorem rxChannelMovesOneByte : Obligations.RxChannelMovesOneByte := by
  refine fun s => ⟨fun b q hen hn hq ha hz => ?_, State.engineRx_disabled⟩
  refine ⟨_, State.engineRx_moves hen hn hq ha hz, rfl, ?same, fun a hne => ?other⟩
  case same => exact (State.readByte_congr _ rfl rfl rfl).trans (s.readByte_write_same _ b hz)
  case other => exact (State.readByte_congr _ rfl rfl rfl).trans (s.readByte_write_other b hne)

/-- Settles O37: with the line asserted the byte out is the head of `TXQ` where there is one (`State.outByte`). -/
theorem masterExchangesOneByte : Obligations.MasterExchangesOneByte := by
  refine fun s m => ⟨fun h => congrArg Except.ok (State.masterXchg_deasserted m h), fun h => ?_⟩
  exact ⟨s.outByte, _, congrArg Except.ok (State.masterXchg_asserted m h), fun b q hq => State.outByte_of_cons hq⟩

end Sys2Proof.Machine
end

section
/-! SUPPORT. Schedules of turns outside the block and of services, taken one after another: what they lead to, up to the
schedule and the report, which such turns do not read (log entries 2 and 17). -/

namespace Sys2Proof.Machine

/-! ### Runs -/

theorem run_succ {M : Host.Core} {s t : M.State} (h : M.step s = .next t) (n : Nat) :
    M.run (n + 1) s = M.run n t := by
  simp only [Host.Core.run, h]

theorem run_add {M : Host.Core} {s t : M.State} {a : Nat} (h : M.run a s = .next t) (b : Nat) :
    M.run (a + b) s = M.run b t := by
  induction a generalizing s with
  | zero => cases h; rw [Nat.zero_add]
  | succ a ih =>
    rw [Nat.succ_add]
    simp only [Host.Core.run] at h ⊢
    split at h
    · exact ih h
    · cases h
    · cases h

theorem State.Inv.run {s t : State} (h : s.Inv) {n : Nat} (ht : Host.Core.run Sys2Proof.core n s = .next t) :
    t.Inv := by
  induction n generalizing s with
  | zero => cases ht; exact h
  | succ n ih =>
    simp only [Host.Core.run] at ht
    split at ht
    · next u hu => exact ih (stepKeepsInvariant s u h hu) ht
    · cases ht
    · cases ht

/-! ### States alike up to the schedule and the report -/

/-- `t` is `s` but for the turns still to come and the report of the last step. -/
def State.Alike (s t : State) : Prop := ∃ c r, t = { s with sched := c, report := r }

theorem State.Alike.refl (s : State) : s.Alike s := ⟨_, _, rfl⟩

theorem State.Alike.trans {s t u : State} (h₁ : s.Alike t) (h₂ : t.Alike u) : s.Alike u := by
  obtain ⟨_, _, rfl⟩ := h₁
  obtain ⟨_, _, rfl⟩ := h₂
  exact ⟨_, _, rfl⟩

theorem State.Alike.begin {s t : State} (h : s.Alike t) (c : List Turn) : s.Alike (t.begin c) :=
  h.trans ⟨_, _, rfl⟩

theorem State.Alike.sameBytes {s t : State} (h : s.Alike t) : s.SameBytes t := by
  obtain ⟨_, _, rfl⟩ := h; exact ⟨rfl, rfl, rfl⟩

theorem State.CleanIdle.alike {s t : State} (hc : s.CleanIdle) (h : s.Alike t) : t.CleanIdle := by
  obtain ⟨_, _, rfl⟩ := h
  exact ⟨hc.inited, hc.unlocked, hc.idle, hc.phase, hc.noPendA, hc.noPendD, hc.rxOn, hc.txOn, hc.rxLoaded, hc.txLoaded,
    hc.rxqEmpty, hc.txqEmpty⟩

theorem State.Alike.masterSel {s t : State} (h : s.Alike t) (v : Bool) : (s.masterSel v).Alike (t.masterSel v) := by
  obtain ⟨c, r, rfl⟩ := h
  rw [State.masterSel, State.masterSel, State.detect_eq, State.detect_eq]
  exact ⟨_, _, rfl⟩

theorem State.Alike.masterXchg {s t : State} (h : s.Alike t) (m : Byte) :
    (s.masterXchg m).Alike (t.masterXchg m) := by
  obtain ⟨c, r, rfl⟩ := h
  simp only [State.masterXchg]
  split <;> exact ⟨_, _, rfl⟩

theorem State.Alike.engineTx {s t u : State} (h : s.Alike t) (hu : s.engineTx = .ok u) :
    ∃ v, t.engineTx = .ok v ∧ u.Alike v := by
  obtain ⟨c, r, rfl⟩ := h
  rcases State.engineTx_ok hu with ⟨hr, rfl⟩ | ⟨hr, x, hx, rfl⟩
  · exact ⟨_, if_neg hr, _, _, rfl⟩
  · exact ⟨_, State.engineTx_of_ready (s := { s with sched := c, report := r }) hr hx, _, _, rfl⟩

theorem State.Alike.engineRx {s t u : State} (h : s.Alike t) (hu : s.engineRx = .ok u) :
    ∃ v, t.engineRx = .ok v ∧ u.Alike v := by
  obtain ⟨c, r, rfl⟩ := h
  rcases State.engineRx_ok hu with ⟨hr, rfl⟩ | ⟨hr, x, q, w, hq, hw, rfl⟩
  · exact ⟨_, if_neg hr, _, _, rfl⟩
  · obtain ⟨rfl, hlt, hz⟩ := State.storeByte_ok hw
    exact ⟨_, State.engineRx_of_ready (s := { s with sched := c, report := r }) hr hq
      (State.storeByte_of_lt hlt hz), _, _, rfl⟩

/-- The agents outside the block read neither the schedule nor the report. -/
theorem State.Alike.envStep {s t u : State} (h : s.Alike t) {e : EnvStep} (hu : Machine.envStep e s = .ok u) :
    ∃ v, Machine.envStep e t = .ok v ∧ u.Alike v := by
  cases e with
  | sel v => cases hu; exact ⟨_, rfl, h.masterSel v⟩
  | pin l =>
    have hc : t.cfg = s.cfg := by obtain ⟨_, _, rfl⟩ := h; rfl
    cases hu
    exact ⟨_, congrArg (fun c => Except.ok (t.masterSel (logicalLevel c l))) hc, h.masterSel _⟩
  | xchg m => cases hu; exact ⟨_, rfl, h.masterXchg m⟩
  | txByte => exact h.engineTx hu
  | rxByte => exact h.engineRx hu

/-- Nor does a handler; it only adds to the report. -/
theorem State.Alike.service {s t u : State} (h : s.Alike t) {e : Edge} (he : s.serviceChoice = some e)
    (hu : exec e.instr s = .next u) : ∃ v, serviceTurn t = .next v ∧ u.Alike v ∧ v.sched = t.sched := by
  obtain ⟨c, r, rfl⟩ := h
  have hc : State.serviceChoice { s with sched := c, report := r } = some e := he
  rw [serviceTurn, hc]
  cases e with
  | asserted =>
    obtain ⟨-, rfl⟩ := exec_selAssert_next hu
    refine ⟨_, exec_selAssert_of hc, ?_⟩
    rw [State.handleAssert_eq, State.handleAssert_eq]
    exact ⟨⟨_, _, rfl⟩, rfl⟩
  | deasserted =>
    obtain ⟨-, rfl⟩ := exec_selDeassert_next hu
    refine ⟨_, exec_selDeassert_of hc, ?_⟩
    rw [State.handleDeassert_eq, State.handleDeassert_eq]
    exact ⟨⟨_, _, rfl⟩, rfl⟩

/-! ### What a schedule leads to -/

/-- The turns `ts`, taken from a state like `s`, lead to one like `t`, whatever turns follow. -/
def State.Leads (ts : List Turn) (s t : State) : Prop :=
  ∀ (u : State) (rest : List Turn), s.Alike u → u.sched = ts ++ rest →
    ∃ v, Host.Core.run Sys2Proof.core ts.length u = .next v ∧ t.Alike v ∧ v.sched = rest

theorem State.Leads.refl (s : State) : State.Leads [] s s := fun u _ hu hs => ⟨u, rfl, hu, hs⟩

theorem State.Leads.append {s t u : State} {ts us : List Turn} (h₁ : State.Leads ts s t)
    (h₂ : State.Leads us t u) : State.Leads (ts ++ us) s u := by
  intro x rest hx hs
  obtain ⟨y, hy, hty, hys⟩ := h₁ x (us ++ rest) hx (by rw [hs, List.append_assoc])
  obtain ⟨z, hz, huz, hzs⟩ := h₂ y rest hty hys
  exact ⟨z, by rw [List.length_append, run_add hy, hz], huz, hzs⟩

theorem State.Leads.cons {s t u : State} {a : Turn} {ts : List Turn} (h₁ : State.Leads [a] s t)
    (h₂ : State.Leads ts t u) : State.Leads (a :: ts) s u := h₁.append h₂

theorem leads_turn {s t : State} {a : Turn}
    (h : ∀ u, s.Alike u → ∃ v, runTurn a u = .next v ∧ t.Alike v ∧ v.sched = u.sched) :
    State.Leads [a] s t := by
  intro u rest hu hs
  obtain ⟨v, hv, htv, hvs⟩ := h (u.begin rest) (hu.begin rest)
  exact ⟨v, run_succ ((step_turn hs).trans hv) 0, htv, hvs⟩

theorem leads_env {s t : State} {e : EnvStep} (h : envStep e s = .ok t) : State.Leads [.env e] s t := by
  refine leads_turn fun u hu => ?_
  obtain ⟨v, hv, htv⟩ := hu.envStep h
  exact ⟨v, congrArg finish hv, htv, (envStep_keeps hv).sched⟩

theorem leads_service {s t : State} {e : Edge} (he : s.serviceChoice = some e) (h : exec e.instr s = .next t) :
    State.Leads [.service] s t :=
  leads_turn fun _ hu => hu.service he h

end Sys2Proof.Machine
end

section
/-! SUPPORT. A full clean frame cycle (`30_encoding.md` R101, `45_environment.md` R203), phase by phase: the states it
goes through, each turn of it, and the state it ends in. -/

namespace Sys2Proof.Machine

/-! ### The states of the cycle -/

/-- Inside a clean frame cycle begun in `s`: the master has sent the bytes `w`, received as many of the bound frame, and
the next `j` bytes of that frame are staged. -/
def State.exchanged (s : State) (w : List Byte) (j : Nat) : State :=
  { s with
    sel := true
    linkPhase := .active
    mem := Memory.writeBytes s.mem s.rxAddr w
    rxRemain := s.cfg.frameSize - w.length
    txRemain := s.cfg.frameSize - w.length - j
    txq := (s.boundOutFrame.drop w.length).take j
    masterLog := s.masterLog ++ s.boundOutFrame.take w.length }

/-- Between the exchange of `b` and its storing: `b` waits in `RXQ`. -/
def State.received (s : State) (w : List Byte) (b : Byte) (j : Nat) : State :=
  { s.exchanged (w ++ [b]) j with
    mem := Memory.writeBytes s.mem s.rxAddr w
    rxRemain := s.cfg.frameSize - w.length
    rxq := [b] }

/-- The line has fallen after a clean cycle in which the master sent `m`, and its event waits for service. -/
def State.fallen (s : State) (m : List Byte) : State :=
  { s.exchanged m 0 with sel := false, linkPhase := .idle, pendD := true }

/-- The state after a clean frame cycle begun in `s` in which the master sent `m`. -/
def State.cycled (s : State) (m : List Byte) : State := (s.fallen m).deasserted

/-- How many of the bytes still to send the transmit queue can hold. -/
def State.stageable (s : State) (w : List Byte) : Nat := min s.cfg.txqDepth (s.cfg.frameSize - w.length)

theorem State.length_boundOutFrame (s : State) : s.boundOutFrame.length = s.cfg.frameSize := s.length_readBytes _ _

theorem State.length_exchanged_txq (s : State) {w : List Byte} {j : Nat} (hj : j ≤ s.stageable w) :
    (s.exchanged w j).txq.length = j := by
  have h : j ≤ min s.cfg.txqDepth (s.cfg.frameSize - w.length) := hj
  simp only [State.exchanged, List.length_take, List.length_drop, s.length_boundOutFrame]
  omega

/-! ### The two bound frames -/

theorem Memory.writeBytes_concat (m : Memory) (a : Nat) (f : List Byte) (b : Byte) :
    Memory.writeBytes m a (f ++ [b]) = Memory.write (Memory.writeBytes m a f) (a + f.length) b := by
  induction f generalizing m a with
  | nil => rfl
  | cons x f ih =>
    rw [List.cons_append, Memory.writeBytes, ih, Memory.writeBytes, List.length_cons, Nat.add_right_comm,
      Nat.add_assoc]

theorem State.Inv.rxSlot_inIn {s : State} (h : s.Inv) (hi : s.inited = true) {k : Nat} (hk : k < s.cfg.frameSize) :
    s.cfg.inIn (s.rxAddr + k) = true := by
  rw [(h.bindings hi).rxAddr]
  exact inSlot_inIn h.rings.inCursor hk

/-- The frame the TX channel is bound to lies apart from the slot the RX channel is bound to. -/
theorem State.Inv.txSource_apart {s : State} (h : s.Inv) (hi : s.inited = true) {k : Nat}
    (hk : k < s.cfg.frameSize) :
    s.txAddr + k < s.rxAddr ∨ s.rxAddr + s.cfg.frameSize ≤ s.txAddr + k := by
  by_contra hin
  obtain ⟨l, hl⟩ : ∃ l, s.txAddr + k = s.rxAddr + l := Nat.exists_eq_add_of_le (by omega)
  have hrx : s.cfg.inIn (s.txAddr + k) = true := hl ▸ h.rxSlot_inIn hi (by omega)
  rcases h.txAddr_inOut_or_inZero hi hk with ho | hz
  · exact absurd (hrx.symm.trans (inIn_eq_false_of_inOut h.cfg ho)) nofun
  · exact absurd (hz.symm.trans (inIn_exists h.cfg hrx).2) nofun

theorem State.Inv.boundOutByte_exists {s : State} (h : s.Inv) (hi : s.inited = true) {k : Nat}
    (hk : k < s.cfg.frameSize) : s.txAddr + k < 2 ^ s.cfg.addrW := by
  rcases h.txAddr_inOut_or_inZero hi hk with ho | hz
  · exact (inOut_exists h.cfg ho).1
  · exact inZero_exists h.cfg hz

/-- What the master has sent so far leaves the bound outbound frame as it was. -/
theorem State.Inv.exchanged_readByte {s : State} (h : s.Inv) (hi : s.inited = true) {w : List Byte} (j : Nat)
    (hw : w.length ≤ s.cfg.frameSize) {k : Nat} (hk : k < s.cfg.frameSize) :
    (s.exchanged w j).readByte (s.txAddr + k) = s.boundOutFrame[k]'(by rwa [s.length_boundOutFrame]) := by
  have hapart := h.txSource_apart hi hk
  calc (s.exchanged w j).readByte (s.txAddr + k)
      = State.readByte { s with mem := Memory.writeBytes s.mem s.rxAddr w } (s.txAddr + k) :=
        State.readByte_congr _ rfl rfl rfl
    _ = s.readByte (s.txAddr + k) := State.readByte_writeBytes_other (by omega)
    _ = s.boundOutFrame[k]'_ := (s.getElem_readBytes _ _ _ hk).symm

section
variable {s : State} (h : s.Inv) (hc : s.CleanIdle) {w : List Byte} {j : Nat}

/-! ### The turns of an exchange -/

include h hc in
/-- While there is room and a byte left, the TX channel stages the next byte of the bound frame (R193). -/
theorem State.CleanIdle.txByte_stages (hj : j < s.stageable w) :
    envStep .txByte (s.exchanged w j) = .ok (s.exchanged w (j + 1)) := by
  have hroom : j < s.cfg.txqDepth ∧ w.length + j < s.cfg.frameSize := by
    have hlt : j < min s.cfg.txqDepth (s.cfg.frameSize - w.length) := hj
    omega
  have hsrc : (s.exchanged w j).txAddr + ((s.exchanged w j).txLen - (s.exchanged w j).txRemain) =
      s.txAddr + (w.length + j) := by
    simp only [State.exchanged, (h.bindings hc.inited).txLen]; omega
  have hready : (s.exchanged w j).txReady = true := by
    refine (State.txReady_iff _).2 ⟨hc.txOn, ?_, ?_⟩
    · simp only [State.exchanged]; omega
    · rw [s.length_exchanged_txq hj.le]; exact hroom.1
  have hmove := State.engineTx_moves hready (hsrc ▸ h.boundOutByte_exists hc.inited hroom.2)
  rw [hsrc, h.exchanged_readByte hc.inited j (by omega) hroom.2, ← List.getElem_drop (i := w.length) (j := j)
    (h := by rw [List.length_drop, s.length_boundOutFrame]; omega)] at hmove
  refine hmove.trans (congrArg Except.ok ?_)
  simp only [State.exchanged, List.take_concat_get', Nat.sub_sub, Nat.add_assoc]

/-- With the queue full or the frame sent whole its step is not taken. -/
theorem State.txByte_waits (s : State) {w : List Byte} :
    envStep .txByte (s.exchanged w (s.stageable w)) = .ok (s.exchanged w (s.stageable w)) := by
  refine State.engineTx_disabled (.inr ?_)
  have hlen := s.length_exchanged_txq (w := w) le_rfl
  rcases Nat.le_total s.cfg.txqDepth (s.cfg.frameSize - w.length) with hle | hle
  · exact .inr (by rw [hlen]; exact (min_eq_left hle).ge)
  · exact .inl (by simp only [State.exchanged, State.stageable, min_eq_right hle, Nat.sub_self])

include h hc in
/-- The TX turns before one exchange stage all that the queue can take. -/
theorem State.CleanIdle.leads_staged (hj : j ≤ s.stageable w) (n : Nat) :
    State.Leads (List.replicate n (.env .txByte)) (s.exchanged w j)
      (s.exchanged w (min (j + n) (s.stageable w))) := by
  induction n generalizing j with
  | zero => rw [Nat.add_zero, min_eq_left hj]; exact .refl _
  | succ n ih =>
    rcases hj.lt_or_eq with hlt | rfl
    · have hmore := ih (j := j + 1) hlt
      rw [Nat.add_right_comm] at hmore
      exact .cons (leads_env (hc.txByte_stages h hlt)) hmore
    · have hmore := ih le_rfl
      rw [min_eq_right (Nat.le_add_right ..)] at hmore ⊢
      exact .cons (leads_env s.txByte_waits) hmore

include h hc in
/-- The master sends `b` and receives the staged byte (R192). -/
theorem State.CleanIdle.xchg_receives (hw : w.length < s.cfg.frameSize) (b : Byte) :
    envStep (.xchg b) (s.exchanged w (j + 1)) = .ok (s.received w b j) := by
  have hq : (s.exchanged w (j + 1)).txq =
      s.boundOutFrame[w.length]'(s.length_boundOutFrame ▸ hw) :: (s.boundOutFrame.drop (w.length + 1)).take j := by
    simp only [State.exchanged]
    rw [List.drop_eq_getElem_cons (s.length_boundOutFrame ▸ hw), List.take_succ_cons]
  obtain ⟨-, -, (hdepth : 0 < s.cfg.rxqDepth), -⟩ := Config.wf_bounds h.cfg
  refine congrArg Except.ok ?_
  rw [State.masterXchg_asserted b rfl, State.outByte_of_cons hq]
  simp only [State.txqEmpty, hq]
  simp [State.exchanged, State.received, hc.rxqEmpty, hdepth, Nat.sub_sub, Nat.add_assoc, Nat.add_comm 1]

include h hc in
/-- The RX channel stores `b` at the next byte of the bound slot (R194). -/
theorem State.CleanIdle.rxByte_stores (hw : w.length < s.cfg.frameSize) (b : Byte) :
    envStep .rxByte (s.received w b j) = .ok (s.exchanged (w ++ [b]) j) := by
  have hdst : (s.received w b j).rxAddr + ((s.received w b j).rxLen - (s.received w b j).rxRemain) =
      s.rxAddr + w.length := by
    simp only [State.received, State.exchanged, (h.bindings hc.inited).rxLen]; omega
  obtain ⟨hlt, hz⟩ := inIn_exists h.cfg (h.rxSlot_inIn hc.inited hw)
  have hmove := State.engineRx_moves (s := s.received w b j) (b := b) (q := []) hc.rxOn
    (Nat.sub_pos_of_lt hw) rfl (hdst ▸ hlt) (hdst ▸ hz)
  rw [hdst] at hmove
  refine hmove.trans (congrArg Except.ok ?_)
  simp [State.received, State.exchanged, hc.rxqEmpty, Memory.writeBytes_concat, Nat.sub_sub]

/-! ### The phases of the cycle -/

include h hc in
/-- One exchange (R101): the queue is filled first, so the byte sent is the next one of the bound frame. -/
theorem State.CleanIdle.leads_exchange (hj : j ≤ s.stageable w) (hw : w.length < s.cfg.frameSize) (b : Byte) :
    State.Leads (Trace.exchange s.cfg b) (s.exchanged w j) (s.exchanged (w ++ [b]) (s.stageable w - 1)) := by
  have hfull : s.stageable w ≤ s.cfg.frameSize := (min_le_right _ _).trans (Nat.sub_le _ _)
  obtain ⟨-, -, -, hdepth, -⟩ := Config.wf_bounds h.cfg
  have hpos : 0 < s.stageable w := lt_min hdepth (Nat.sub_pos_of_lt hw)
  have hfill := hc.leads_staged h hj s.cfg.frameSize
  rw [min_eq_right (by omega), ← Nat.sub_one_add_one hpos.ne'] at hfill
  exact hfill.append (.cons (leads_env (hc.xchg_receives h hw b)) (leads_env (hc.rxByte_stores h hw b)))

include h hc in
/-- The exchanges of the bytes `v` one after another. -/
theorem State.CleanIdle.leads_exchanges (v : List Byte) (hj : j ≤ s.stageable w)
    (hv : w.length + v.length ≤ s.cfg.frameSize) :
    ∃ i ≤ s.stageable (w ++ v),
      State.Leads (v.flatMap (Trace.exchange s.cfg)) (s.exchanged w j) (s.exchanged (w ++ v) i) := by
  induction v generalizing w j with
  | nil => exact ⟨j, by rwa [List.append_nil], by rw [List.append_nil]; exact .refl _⟩
  | cons b v ih =>
    rw [List.length_cons] at hv
    have hleft : s.stageable w - 1 ≤ s.stageable (w ++ [b]) := by
      simp only [State.stageable, List.length_append, List.length_singleton]; omega
    obtain ⟨i, hi, hlead⟩ := ih hleft (by rw [List.length_append, List.length_singleton]; omega)
    rw [List.append_assoc] at hi hlead
    exact ⟨i, hi, (hc.leads_exchange h hj (by omega) b).append hlead⟩

include hc in
/-- The assert edge and its service: the queue is empty, so both enables stay on (R146, R149). -/
theorem State.CleanIdle.leads_assert : State.Leads (Trace.edge true) s (s.exchanged [] 0) := by
  have hseen : State.edgeSeen { s with sel := true } = true :=
    (State.edgeSeen_iff _).2 ⟨hc.inited, by rw [hc.phase]; nofun⟩
  have hchoice : State.serviceChoice { s with sel := true, linkPhase := .active, pendA := true } =
      some .asserted := by
    simp [State.serviceChoice, State.oldestPending, hc.inited, hc.unlocked, hc.noPendD]
  refine .cons (leads_env (congrArg Except.ok (State.detect_latches_assert hseen rfl hc.noPendA))) ?_
  obtain ⟨hempty, -⟩ := assertDefersOnStaleQueue _ hchoice
  refine leads_service hchoice ((hempty hc.txqEmpty).trans (congrArg Host.Outcome.next ?_))
  simp [State.exchanged, Memory.writeBytes, hc.noPendA, hc.rxOn, hc.txOn, hc.rxLoaded, hc.txLoaded, hc.txqEmpty]

include hc in
/-- The deassert edge and its service (R146, R150). -/
theorem State.CleanIdle.leads_deassert (m : List Byte) :
    State.Leads (Trace.edge false) (s.exchanged m 0) (s.cycled m) := by
  have hseen : State.edgeSeen { s.exchanged m 0 with sel := false } = true :=
    (State.edgeSeen_iff _).2 ⟨hc.inited, nofun⟩
  have hchoice : (s.fallen m).serviceChoice = some .deasserted := by
    simp [State.serviceChoice, State.oldestPending, State.fallen, State.exchanged, hc.inited, hc.unlocked,
      hc.noPendA]
  exact .cons (leads_env (congrArg Except.ok (State.detect_latches_deassert hseen rfl hc.noPendD)))
    (leads_service hchoice (exec_selDeassert_deasserted hchoice))

include h hc in
/-- The whole cycle: after its last exchange nothing is left to stage. -/
theorem State.CleanIdle.leads_cycle {m : List Byte} (hm : m.length = s.cfg.frameSize) :
    State.Leads (Trace.xferCycle s.cfg m) s (s.cycled m) := by
  obtain ⟨i, hi, hbytes⟩ := hc.leads_exchanges h (w := []) (j := 0) m (Nat.zero_le _) (by simp [hm])
  have hzero : i = 0 := by simpa [State.stageable, hm] using hi
  rw [hzero, List.nil_append] at hbytes
  exact (hc.leads_assert.append hbytes).append (hc.leads_deassert m)

end

/-! ### After the cycle -/

theorem State.sameBytes_cycled (s : State) (m : List Byte) :
    State.SameBytes { s with mem := Memory.writeBytes s.mem s.rxAddr m } (s.cycled m) :=
  State.SameBytes.trans (t := s.fallen m) ⟨rfl, rfl, rfl⟩ (State.sameBytes_deasserted _)

theorem State.cycled_masterLog (s : State) {m : List Byte} (hm : m.length = s.cfg.frameSize) :
    (s.cycled m).masterLog = s.masterLog ++ s.boundOutFrame := by
  have hlog : s.boundOutFrame.take m.length = s.boundOutFrame :=
    List.take_of_length_le (by rw [s.length_boundOutFrame, hm])
  rw [State.cycled, State.deasserted, State.handleDeassert_eq]
  exact congrArg (s.masterLog ++ ·) hlog

theorem State.cycled_inCursor (s : State) (m : List Byte) :
    (s.cycled m).inCursor = (s.inCursor + 1) % s.cfg.capacity := by
  rw [State.cycled, State.deasserted, State.handleDeassert_eq]; rfl

theorem State.cycled_inCount (s : State) (m : List Byte) :
    (s.cycled m).inCount = if s.inCount = s.cfg.capacity then s.inCount else s.inCount + 1 :=
  (s.fallen m).deasserted_inCount

theorem State.cycled_outCount (s : State) (m : List Byte) : (s.cycled m).outCount = s.outCount - 1 :=
  (s.fallen m).deasserted_outCount

theorem State.cycled_txAddr (s : State) (m : List Byte) :
    (s.cycled m).txAddr = if 0 < s.outCount then slotAddr s.cfg s.cfg.outBase s.outCursor else s.cfg.zeroBase :=
  (s.fallen m).deasserted_txAddr

/-- The deassert handler leaves both channels loaded and enabled, and the block ready for the next cycle. -/
theorem State.CleanIdle.cycled {s : State} (hc : s.CleanIdle) (m : List Byte) : (s.cycled m).CleanIdle := by
  rw [State.cycled, State.deasserted, State.handleDeassert_eq]
  exact ⟨hc.inited, rfl, hc.idle, rfl, hc.noPendA, rfl, rfl, rfl, rfl, rfl, rfl, rfl⟩

/-- Settles O56: the schedule of the cycle leads to `State.cycled` (`State.CleanIdle.leads_cycle`), which is the deassert
handler after the last exchange; the invariant is kept by every step. -/
theorem cleanFrameCycle : Obligations.CleanFrameCycle := by
  intro s m rest h hc hm hs
  obtain ⟨t, hrun, ht, hrest⟩ := hc.leads_cycle h hm s rest (.refl s) hs
  have hslot (k : Nat) (hk : k < m.length) : s.cfg.inZero (s.rxAddr + k) = false :=
    (inIn_exists h.cfg (h.rxSlot_inIn hc.inited (hm ▸ hk))).2
  have hbytes := (s.sameBytes_cycled m).trans ht.sameBytes
  have hidle := (hc.cycled m).alike ht
  have hlog := s.cycled_masterLog hm
  have hinv := h.run hrun
  obtain ⟨c, r, rfl⟩ := ht
  refine ⟨_, hrun, hlog, ?slot, fun a ha => ?others, s.cycled_inCount m, s.cycled_inCursor m,
    s.cycled_outCount m, s.cycled_txAddr m, hidle, hinv, hrest⟩
  case slot => rw [hbytes.readBytes, ← hm]; exact State.readBytes_writeBytes hslot
  case others => rw [hbytes.readByte]; exact State.readByte_writeBytes_other (hm ▸ ha)

end Sys2Proof.Machine
end

section
/-! SUPPORT. What of the environment the block reaches (`45_environment.md` R190, R195, R196, R198, R199): outside the
frame copies, by its pulses alone; so what the other agents' steps keep, a step of the machine keeps. -/

namespace Sys2Proof.Machine

theorem State.SameControl.during (s : State) (d : List (List EnvStep)) : s.SameControl { s with during := d } :=
  ⟨_, _, _, d, _, _, rfl, rfl⟩

/-! ### The pulses -/

/-- `i` takes the environment from `s` to `t` by its pulses alone: the drain pops the receive queue, a load or an abort
writes the remaining counts, and no operation drives the line, the master's log or the transmit queue. -/
structure State.PulsesOnly (i : Instr) (s t : State) : Prop where
  sel : t.sel = s.sel
  masterLog : t.masterLog = s.masterLog
  txq : t.txq = s.txq
  rxq : i ≠ .drainRxq → i ≠ .selDeassert → t.rxq = s.rxq
  remain : i ≠ .init → i ≠ .rearm → i ≠ .haltEngine → i ≠ .selDeassert →
    t.rxRemain = s.rxRemain ∧ t.txRemain = s.txRemain

theorem State.PulsesOnly.trans {i : Instr} {s t u : State} (h₁ : s.PulsesOnly i t) (h₂ : t.PulsesOnly i u) :
    s.PulsesOnly i u where
  sel := h₂.sel.trans h₁.sel
  masterLog := h₂.masterLog.trans h₁.masterLog
  txq := h₂.txq.trans h₁.txq
  rxq ha hb := (h₂.rxq ha hb).trans (h₁.rxq ha hb)
  remain ha hb hc hd :=
    ⟨(h₂.remain ha hb hc hd).1.trans (h₁.remain ha hb hc hd).1,
      (h₂.remain ha hb hc hd).2.trans (h₁.remain ha hb hc hd).2⟩

/-- Where nothing of the environment changes, no pulse is needed. -/
theorem State.PulsesOnly.ofSame {s t : State} (i : Instr) (hs : t.sel = s.sel := by rfl)
    (hl : t.masterLog = s.masterLog := by rfl) (ht : t.txq = s.txq := by rfl) (hr : t.rxq = s.rxq := by rfl)
    (hrx : t.rxRemain = s.rxRemain := by rfl) (htx : t.txRemain = s.txRemain := by rfl) : s.PulsesOnly i t :=
  ⟨hs, hl, ht, fun _ _ => hr, fun _ _ _ _ => ⟨hrx, htx⟩⟩

/-- A turn's preparation reaches nothing of the environment, whatever operation follows. -/
theorem State.Prepared.pulsesOnly {s u : State} (h : s.Prepared u) (i : Instr) : s.PulsesOnly i u := by
  obtain ⟨_, _, _, _, _, rfl⟩ := h
  exact .ofSame i

/-- Only loads write the remaining counts (R195). -/
theorem State.pulsesOnly_initialised (s : State) : s.PulsesOnly .init s.initialised := by
  rw [State.initialised_eq]
  exact ⟨rfl, rfl, rfl, fun _ _ => rfl, fun hi => absurd rfl hi⟩

theorem State.pulsesOnly_rearm (s : State) : s.PulsesOnly .rearm s.rearm := by
  rw [State.rearm_eq]
  exact ⟨rfl, rfl, rfl, fun _ _ => rfl, fun _ hi => absurd rfl hi⟩

theorem State.pulsesOnly_haltEngine (s : State) : s.PulsesOnly .haltEngine s.haltEngine :=
  ⟨rfl, rfl, rfl, fun _ _ => rfl, fun _ _ hi => absurd rfl hi⟩

theorem State.pulsesOnly_drainRxq (s : State) : s.PulsesOnly .drainRxq s.drainRxq :=
  ⟨rfl, rfl, rfl, fun hi => absurd rfl hi, fun _ _ _ _ => ⟨rfl, rfl⟩⟩

/-- The test of the queue reads it alone (R149). -/
theorem State.pulsesOnly_assert (s : State) :
    s.PulsesOnly .selAssert (State.takeEvent .asserted s).handleAssert := by
  rw [State.handleAssert_eq]
  exact .ofSame _

theorem State.pulsesOnly_deassert (s : State) :
    s.PulsesOnly .selDeassert (State.takeEvent .deasserted s).handleDeassert := by
  rw [State.handleDeassert_eq]
  exact ⟨rfl, rfl, rfl, fun _ hi => absurd rfl hi, fun _ _ _ hi => absurd rfl hi⟩

/-! ### When steps of other agents fall inside an operation -/

theorem State.copySteps_enqueue {s : State} (d : List (List EnvStep)) (hl : s.lock = true)
    (hc : s.outCount ≠ s.cfg.capacity) : s.copySteps .enqueue d = d.flatten := by
  simp [State.copySteps, hl, hc]

theorem State.copySteps_dequeue {s : State} (d : List (List EnvStep)) (hl : s.lock = true)
    (hc : s.inCount ≠ 0) : s.copySteps .dequeue d = d.flatten := by
  simp [State.copySteps, hl, hc]

theorem State.copySteps_submit {s : State} (d : List (List EnvStep)) (hq : s.hseq = .held)
    (ho : s.hcmd.op = .submit) (hl : s.lock = true) (hc : s.outCount ≠ s.cfg.capacity) :
    s.copySteps .submit d = d.flatten := by
  simp [State.copySteps, hq, ho, hl, hc]

theorem State.copySteps_receive {s : State} (d : List (List EnvStep)) (hq : s.hseq = .held)
    (ho : s.hcmd.op = .receive) (hl : s.lock = true) (hc : s.inCount ≠ 0) :
    s.copySteps .receive d = d.flatten := by
  simp [State.copySteps, hq, ho, hl, hc]

/-- Nothing is listed, so nothing falls inside. -/
theorem State.copySteps_nil (i : Instr) (s : State) : s.copySteps i [] = [] := by
  cases i <;> simp [State.copySteps]

/-- The first step of a host operation copies nothing (R168). -/
theorem State.copySteps_idle {i : Instr} {s : State} (d : List (List EnvStep)) (hf : i.format = .host)
    (hq : s.hseq = .idle) : s.copySteps i d = [] := by
  rcases Instr.format_eq_host_iff.1 hf with rfl | rfl | rfl
  · rfl
  · simp [State.copySteps, hq]
  · simp [State.copySteps, hq]

theorem State.copySteps_edge (e : Edge) (d : List (List EnvStep)) (s : State) : s.copySteps e.instr d = [] := by
  cases e <;> rfl

/-! ### What the other agents' steps keep, an operation keeps -/

section
variable {p : EnvStep → State → Bool} {J : State → Prop} (k : KeptUnder p J) {i : Instr}
  (hJ : ∀ {u v : State}, u.PulsesOnly i v → J u → J v) {s t : State}
include k hJ

theorem KeptUnder.enqueue {f : Frame} {ok : Bool} (h : s.enqueue f = .ok (t, ok))
    (hs : s.outCount ≠ s.cfg.capacity → stepsRespect p s.during.flatten s = true) (hj : J s) : J t := by
  have hj₀ : J { s with during := [] } := hJ (.ofSame i) hj
  rcases State.enqueue_ok h with ⟨-, -, rfl⟩ | ⟨hc, -, u, hu, -, rfl⟩
  · exact hJ (.ofSame i) hj₀
  · exact hJ (.ofSame i) (k.copyIn hu ((stepsRespect_congr k.reads _ (.during s [])).trans (hs hc)) hj₀)

theorem KeptUnder.dequeue {r : Option Frame} (h : s.dequeue = .ok (t, r))
    (hs : s.inCount ≠ 0 → stepsRespect p s.during.flatten s = true) (hj : J s) : J t := by
  have hj₀ : J { s with during := [] } := hJ (.ofSame i) hj
  rcases State.dequeue_ok h with ⟨-, -, rfl⟩ | ⟨hc, u, f, hu, -, -, -, rfl⟩
  · exact hJ (.ofSame i) hj₀
  · exact hJ (.ofSame i) (k.copyOut hu ((stepsRespect_congr k.reads _ (.during s [])).trans (hs hc)) hj₀)

/-- Kept by the steps inside a copy and by the operation's pulses, so by the operation. -/
theorem KeptUnder.exec (h : exec i s = .next t) (hs : stepsRespect p (s.copySteps i s.during) s = true)
    (hj : J s) : J t := by
  cases i with
  | init => obtain ⟨-, -, rfl⟩ := exec_init_next h; exact hJ s.pulsesOnly_initialised hj
  | submit =>
    rcases exec_submit_next h with ⟨-, -, -, rfl⟩ | ⟨hq, ho, hl, u, ok, hu, rfl⟩
    · exact hJ (.ofSame _) hj
    · exact hJ (.ofSame _) (k.enqueue hJ hu (fun hc => s.copySteps_submit _ hq ho hl hc ▸ hs) hj)
  | receive =>
    rcases exec_receive_next h with ⟨-, -, -, rfl⟩ | ⟨hq, ho, hl, u, r, hu, rfl⟩
    · exact hJ (.ofSame _) hj
    · have hju := k.dequeue hJ hu (fun hc => s.copySteps_receive _ hq ho hl hc ▸ hs) hj
      cases r <;> exact hJ (.ofSame _) hju
  | selAssert => obtain ⟨-, rfl⟩ := exec_selAssert_next h; exact hJ s.pulsesOnly_assert hj
  | selDeassert => obtain ⟨-, rfl⟩ := exec_selDeassert_next h; exact hJ s.pulsesOnly_deassert hj
  | xdAcquire => obtain ⟨-, rfl⟩ := exec_xdAcquire_next h; exact hJ (.ofSame _) hj
  | xdRelease => obtain ⟨-, rfl⟩ := exec_xdRelease_next h; exact hJ (.ofSame _) hj
  | enqueue =>
    obtain ⟨hl, u, ok, hu, rfl⟩ := exec_enqueue_next h
    exact hJ (.ofSame _) (k.enqueue hJ hu (fun hc => s.copySteps_enqueue _ hl hc ▸ hs) hj)
  | dequeue =>
    obtain ⟨hl, u, r, hu, rfl⟩ := exec_dequeue_next h
    exact hJ (.ofSame _) (k.dequeue hJ hu (fun hc => s.copySteps_dequeue _ hl hc ▸ hs) hj)
  | tryReserveOut =>
    obtain ⟨-, rfl⟩ := exec_tryReserveOut_next h
    rw [State.reserveOut_eq]; exact hJ (.ofSame _) hj
  | advanceIn => obtain ⟨-, rfl⟩ := exec_advanceIn_next h; rw [State.advanceIn_eq]; exact hJ (.ofSame _) hj
  | rearm => obtain ⟨-, -, rfl⟩ := exec_rearm_next h; exact hJ s.pulsesOnly_rearm hj
  | haltEngine => rw [exec_haltEngine_next h]; exact hJ s.pulsesOnly_haltEngine hj
  | drainRxq => rw [exec_drainRxq_next h]; exact hJ s.pulsesOnly_drainRxq hj
  | setTrig a b => rw [exec_setTrig_next h]; exact hJ (.ofSame _) hj

end

/-- With no step of another agent allowed, what is left is the bytes a copy stores. -/
theorem keptUnder_pulsesOnly (i : Instr) (s : State) : KeptUnder (fun _ _ => false) (s.PulsesOnly i) where
  reads _ _ _ _ := rfl
  step _ hp := nomatch hp
  store _ h := h.trans (.ofSame i)

/-- Settles O38: with nothing inside its copy an operation reaches the environment by its pulses alone. -/
theorem blockReachesEnvironmentByPulsesOnly : Obligations.BlockReachesEnvironmentByPulsesOnly := by
  intro i s t hd h
  have hnone : s.copySteps i s.during = [] := by rw [hd, s.copySteps_nil]
  obtain ⟨hsel, hlog, htxq, hrxq, hremain⟩ :=
    (keptUnder_pulsesOnly i s).exec (fun hv hu => hu.trans hv) h (by rw [hnone]; rfl) (.ofSame i)
  exact ⟨hsel, hlog, htxq, hrxq, hremain⟩

/-! ### What the other agents' steps keep, a step of the machine keeps -/

section
variable {p : EnvStep → State → Bool} {J : State → Prop} (k : KeptUnder p J)
  (hJ : ∀ {i : Instr} {u v : State}, u.PulsesOnly i v → J u → J v) {s t : State}
include k hJ

theorem KeptUnder.acceptCommand (h : acceptCommand s = .next t) (hj : J s) : J t := by
  unfold Machine.acceptCommand at h
  split at h
  · cases h
  · next i _ =>
    split at h
    · next hf =>
      split at h
      · next hq => exact k.exec hJ h (by rw [s.copySteps_idle _ hf hq]; rfl) hj
      · rw [presentWhileHeld_next h]; exact hj
    · cases h

theorem KeptUnder.edge {e : Edge} (h : Machine.exec e.instr s = .next t) (hj : J s) : J t :=
  k.exec hJ h (by rw [s.copySteps_edge]; rfl) hj

theorem KeptUnder.bodyTurn {d : List (List EnvStep)} (h : bodyTurn d s = .next t)
    (hs : stepsRespect p (s.copySteps s.hcmd.op.instr d) s = true) (hj : J s) : J t := by
  unfold Machine.bodyTurn at h
  split at h
  · exact k.exec hJ h ((stepsRespect_congr k.reads _ (.during s d)).trans hs) (hJ (.ofSame .init) hj)
  · cases h; exact hj

/-- Kept by each step of another agent that the premise allows and by the block's pulses, so by the whole step. -/
theorem KeptUnder.machineStep (h : Machine.step s = .next t) (hs : stepsRespect p s.nextEnvSteps s = true)
    (hj : J s) : J t := by
  have prepared {u v : State} (hu : J u) (hv : u.Prepared v) : J v := hJ (hv.pulsesOnly .init) hu
  have hb (c : List Turn) : J (s.begin c) := prepared hj (s.prepared_begin c)
  have respected (c : List Turn) (es : List EnvStep) : stepsRespect p es (s.begin c) = stepsRespect p es s :=
    stepsRespect_congr k.reads es (.begin s c s.during)
  cases hq : s.sched with
  | nil =>
    rw [step_idle hq, idleTurn] at h
    split at h
    · exact k.edge hJ h (hb [])
    · exact k.bodyTurn hJ h (by rw [State.copySteps_nil]; rfl) (hb [])
  | cons u c =>
    rw [step_turn hq] at h
    simp only [State.nextEnvSteps, hq] at hs
    cases u with
    | cmd w f => exact k.acceptCommand hJ h (prepared (hb c) (State.prepared_present w f _))
    | body d => exact k.bodyTurn hJ h ((respected c _).trans hs) (hb c)
    | service =>
      rw [runTurn, serviceTurn] at h
      split at h
      · exact k.edge hJ h (hb c)
      · cases h; exact hb c
    | contend w f =>
      rw [runTurn, contendTurn] at h
      split at h
      · exact k.edge hJ h (prepared (hb c) ⟨_, _, _, .cmd w f :: c, _, rfl⟩)
      · exact k.acceptCommand hJ h (prepared (hb c) (State.prepared_present w f _))
    | env e =>
      have he : Machine.envSteps [e] (s.begin c) = .ok t := by rw [Machine.envSteps, ok_of_finish_next h]; rfl
      exact k.envSteps he ((respected c _).trans hs) (hb c)
    | rst => cases h; exact hJ (.ofSame .init) (hb c)
    | issue w =>
      rw [runTurn, runWord] at h
      split at h
      · cases h
      · next i hi =>
        simp only [hi] at hs
        exact k.exec hJ h ((respected c _).trans hs) (hb c)

end

/-! ### The idle transmit queue -/

/-- The premise `NoIdlePrefetch` (R201) together with a line that no step asserts. -/
def idleWithoutPrefetch (e : EnvStep) (u : State) : Bool :=
  (!decide (e = .txByte) || u.sel || !u.txReady) && !e.asserts u.cfg

/-- The parameters do not change, so whether a step asserts the line can be told beforehand. -/
theorem stepsRespect_not_asserts {p : EnvStep → State → Bool} {es : List EnvStep} {s : State}
    (hp : stepsRespect p es s = true) (ha : ∀ e ∈ es, e.asserts s.cfg = false) :
    stepsRespect (fun e u => p e u && !e.asserts u.cfg) es s = true := by
  induction es generalizing s with
  | nil => rfl
  | cons e es ih =>
    obtain ⟨he, hes⟩ := List.forall_mem_cons.1 ha
    simp only [stepsRespect, Bool.and_eq_true] at hp ⊢
    refine ⟨⟨hp.1, by rw [he]; rfl⟩, ?_⟩
    split
    · next u hu =>
      have hu' := hp.2
      rw [hu] at hu'
      exact ih hu' ((envStep_keeps hu).cfg ▸ hes)
    · rfl

/-- The line is deasserted and the transmit queue holds `q`. -/
def State.IdleQueue (q : List Byte) (s : State) : Prop := s.sel = false ∧ s.txq = q

theorem State.IdleQueue.masterSel {q : List Byte} {s : State} (h : s.IdleQueue q) {v : Bool} (hv : v = false) :
    (s.masterSel v).IdleQueue q := by
  rw [State.masterSel, State.detect_eq]; exact ⟨hv, h.2⟩

/-- While the line stays deasserted the master clocks nothing out and, under the premise, the channel stages nothing. -/
theorem keptUnder_idleQueue (q : List Byte) : KeptUnder idleWithoutPrefetch (State.IdleQueue q) where
  reads e u v h := by
    have hcfg : v.cfg = u.cfg := by obtain ⟨_, _, _, _, _, _, rfl, -⟩ := h; rfl
    exact congrArg₂ (· && ·) (noIdlePrefetch_readsNoBytes e u v h) (by rw [hcfg])
  step {e u v} h hp ht := by
    simp only [idleWithoutPrefetch, Bool.and_eq_true, Bool.not_eq_true'] at hp
    obtain ⟨hprefetch, hlow⟩ := hp
    cases e with
    | sel b => cases ht; exact h.masterSel hlow
    | pin l => cases ht; exact h.masterSel hlow
    | xchg m => cases ht; rw [State.masterXchg_deasserted m h.1]; exact h
    | txByte =>
      have hready : u.txReady = false := by simpa [h.1] using hprefetch
      rcases State.engineTx_ok ht with ⟨-, rfl⟩ | ⟨hr, -⟩
      · exact h
      · exact absurd (hr.symm.trans hready) nofun
    | rxByte =>
      rcases State.engineRx_ok ht with ⟨-, rfl⟩ | ⟨-, b, rest, w, -, hw, rfl⟩
      · exact h
      · rw [(State.storeByte_ok hw).1]; exact h
  store _ h := h

/-- Settles O50: the line stays deasserted and the queue as it was through every step of another agent in the step, and
the block reaches neither (`State.PulsesOnly`). -/
theorem noPrefetchLeavesIdleQueueAlone : Obligations.NoPrefetchLeavesIdleQueueAlone := by
  intro s t hsel hprefetch hlow h
  have hkept : t.IdleQueue s.txq :=
    (keptUnder_idleQueue s.txq).machineStep (fun hv hu => ⟨hv.sel.trans hu.1, hv.txq.trans hu.2⟩) h
      (stepsRespect_not_asserts hprefetch hlow) ⟨hsel, rfl⟩
  exact hkept.2

end Sys2Proof.Machine
end

section
/-! SUPPORT. The service step (`42_edge_handler.md` R148, `60_exceptions.md` R220): which event it takes, and that it then
runs that event's handler. -/

namespace Sys2Proof.Machine

theorem State.serviceChoice_asserted {s : State} (hi : s.inited = true) (hl : s.lock = false) (ha : s.pendA = true)
    (hd : s.pendD = true → s.linkPhase = .idle) : s.serviceChoice = some .asserted := by
  rw [State.serviceChoice, if_pos ⟨hi, hl⟩, State.oldestPending, ha]
  cases hp : s.pendD with
  | true => rw [hd hp]; rfl
  | false => rfl

theorem State.serviceChoice_deasserted {s : State} (hi : s.inited = true) (hl : s.lock = false) (hd : s.pendD = true)
    (ha : s.pendA = true → s.linkPhase = .active) : s.serviceChoice = some .deasserted := by
  rw [State.serviceChoice, if_pos ⟨hi, hl⟩, State.oldestPending, hd]
  cases hp : s.pendA with
  | true => rw [ha hp]; rfl
  | false => rfl

theorem serviceTurn_of_some {s : State} {e : Edge} (h : s.serviceChoice = some e) :
    serviceTurn s = exec e.instr s := by
  simp only [serviceTurn, h]

theorem step_service {s : State} {e : Edge} {rest : List Turn} (hs : s.sched = .service :: rest)
    (h : s.serviceChoice = some e) : step s = exec e.instr (s.begin rest) :=
  (step_turn hs).trans (serviceTurn_of_some (s := s.begin rest) h)

/-- Settles O8: in each case the choice is the older event, and the step runs the handler of the choice
(`step_service`). -/
theorem serviceTakesTheOlderEvent : Obligations.ServiceTakesTheOlderEvent := by
  intro s rest hs
  refine ⟨fun hi hl _ hd hp => ?fell, fun hi hl ha _ hp => ?rose, fun hi hl ha hd => ?deassert,
    fun hi hl ha hd => ?assert⟩
  case fell => exact step_service hs (State.serviceChoice_deasserted hi hl hd fun _ => hp)
  case rose => exact step_service hs (State.serviceChoice_asserted hi hl ha fun _ => hp)
  case deassert => exact step_service hs (State.serviceChoice_deasserted hi hl hd (by simp [ha]))
  case assert => exact step_service hs (State.serviceChoice_asserted hi hl ha (by simp [hd]))

end Sys2Proof.Machine
end

section
/-! SUPPORT. Nothing is fatal (`60_exceptions.md` R210, `41_engine_controller.md` R134): what the block does by itself has
a next state, and what is refused is a host's word (`43_host_api.md` R170). -/

namespace Sys2Proof.Machine

theorem ne_fault_of_next {x : Result} (h : ∃ t, x = .next t) (r : Fault) : x ≠ .fault r := by
  obtain ⟨t, rfl⟩ := h
  nofun

/-! ### Turns that always have a next state -/

/-- The handler of the event chosen runs to its end (R149, R150). -/
theorem exec_edge_succeeds {s : State} {e : Edge} (h : s.serviceChoice = some e) : ∃ t, exec e.instr s = .next t := by
  cases e with
  | asserted => exact ⟨_, exec_selAssert_of h⟩
  | deasserted => exact ⟨_, exec_selDeassert_of h⟩

theorem serviceTurn_succeeds (s : State) : ∃ t, serviceTurn s = .next t := by
  cases hc : s.serviceChoice with
  | none => exact ⟨s, serviceTurn_of_none hc⟩
  | some e => rw [serviceTurn_of_some hc]; exact exec_edge_succeeds hc

/-- The operation held ends, whatever other agents do inside its copy; none held, the turn is skipped. -/
theorem State.Inv.bodyTurn_succeeds {s : State} (h : s.Inv) (d : List (List EnvStep)) :
    ∃ t, Machine.bodyTurn d s = .next t := by
  cases hq : s.hseq with
  | idle => exact ⟨s, bodyTurn_idle d hq⟩
  | held =>
    have hen : s.bodyEnabled = true := by simp [State.bodyEnabled, hq, h.host.held_lock hq]
    have hd : State.Inv { s with during := d } := h.update
    obtain ⟨t, ht, -⟩ := hd.exec_held hq
    exact ⟨t, (if_pos hen).trans ht⟩

theorem State.Inv.idleTurn_succeeds {s : State} (h : s.Inv) : ∃ t, Machine.idleTurn s = .next t := by
  unfold Machine.idleTurn
  split
  · next hc => exact exec_edge_succeeds hc
  · exact h.bodyTurn_succeeds []

/-- Of the agents' turns only one that presents a word on the port can fail to have a next state. -/
theorem State.Inv.runTurn_succeeds {s : State} (h : s.Inv) {u : Turn} (hu : u.isAgents = true)
    (hw : ∀ w f, u ≠ .cmd w f ∧ u ≠ .contend w f) : ∃ t, Machine.runTurn u s = .next t := by
  cases u with
  | cmd w f => exact absurd rfl (hw w f).1
  | contend w f => exact absurd rfl (hw w f).2
  | body d => exact h.bodyTurn_succeeds d
  | service => exact serviceTurn_succeeds s
  | env e =>
    obtain ⟨t, ht⟩ := h.envStep_succeeds e
    exact ⟨t, congrArg finish ht⟩
  | rst => exact ⟨_, rfl⟩
  | issue w => cases hu

/-! ### A word on the port may be refused, and never faults -/

/-- No first step of a host operation touches memory. -/
theorem exec_host_ne_fault {s : State} {i : Instr} (hi : i.format = .host) (hq : s.hseq = .idle) (r : Fault) :
    exec i s ≠ .fault r := by
  rcases Instr.format_eq_host_iff.1 hi with rfl | rfl | rfl
  · simp only [exec, execInit]; split_ifs <;> nofun
  · simp only [exec, execSubmit, hq]; split_ifs <;> nofun
  · simp only [exec, execReceive, hq]; split_ifs <;> nofun

theorem presentWhileHeld_ne_fault (i : Instr) (s : State) (r : Fault) : presentWhileHeld i s ≠ .fault r := by
  unfold presentWhileHeld
  split <;> nofun

theorem acceptCommand_ne_fault (s : State) (r : Fault) : acceptCommand s ≠ .fault r := by
  unfold acceptCommand
  split
  · nofun
  · split
    · next hf =>
      split
      · next hq => exact exec_host_ne_fault hf hq r
      · exact presentWhileHeld_ne_fault _ s r
    · nofun

theorem contendTurn_ne_fault (w : OpWord) (f : Nat) (s : State) (r : Fault) : contendTurn w f s ≠ .fault r := by
  cases hc : s.serviceChoice with
  | none => rw [contendTurn_of_none w f hc]; exact acceptCommand_ne_fault _ r
  | some e =>
    rw [contendTurn_of_some w f hc]
    exact ne_fault_of_next (exec_edge_succeeds (s := { s with sched := .cmd w f :: s.sched }) hc) r

theorem State.Inv.runTurn_ne_fault {s : State} (h : s.Inv) {u : Turn} (hu : u.isAgents = true) (r : Fault) :
    Machine.runTurn u s ≠ .fault r := by
  by_cases hw : ∀ w f, u ≠ .cmd w f ∧ u ≠ .contend w f
  · exact ne_fault_of_next (h.runTurn_succeeds hu hw) r
  · cases u with
    | cmd w f => exact acceptCommand_ne_fault _ r
    | contend w f => exact contendTurn_ne_fault w f s r
    | _ => exact absurd (fun _ _ => ⟨nofun, nofun⟩) hw

/-- Settles O44: the turns that present no word have a next state under the invariant, and a word presented is taken or
refused. -/
theorem nothingIsFatal : Obligations.NothingIsFatal := by
  intro s h
  cases hs : s.sched with
  | nil =>
    have hb : (s.begin []).Inv := h.prepared (State.prepared_begin [] s) nofun
    rw [step_idle hs]
    exact ⟨ne_fault_of_next hb.idleTurn_succeeds, fun _ => hb.idleTurn_succeeds⟩
  | cons u c =>
    obtain ⟨hu, hc⟩ := List.forall_mem_cons.1 (hs ▸ h.agents)
    have hb : (s.begin c).Inv := h.prepared (State.prepared_begin c s) hc
    rw [step_turn hs]
    refine ⟨hb.runTurn_ne_fault hu, fun hw => hb.runTurn_succeeds hu fun w f => ?_⟩
    obtain ⟨hcmd, hcontend⟩ := hw w f c
    exact ⟨fun he => hcmd (by rw [he]), fun he => hcontend (by rw [he])⟩

end Sys2Proof.Machine
end

section
/-! SUPPORT. A master that waits (`70_reset_and_hazards.md` R246): what a step outside the block does to the pending
deassert, the line and the bytes the master clocks, and what a step of the machine does to them. -/

namespace Sys2Proof.Machine

/-! ### The steps outside the block -/

/-- What a step `e` of another agent leaves of the pending deassert, the line and the master's bytes: only its own
exchange on an asserted line adds to the log, and `RXQ` gains no more bytes than the log. -/
structure EnvStep.LineEffect (e : EnvStep) (u v : State) : Prop where
  pendD : u.pendD = true → v.pendD = true
  sel : e.asserts u.cfg = false → u.sel = false → v.sel = false
  masterLog : (e.isXchg && u.sel) = false → v.masterLog = u.masterLog
  rxq : v.rxq.length + u.masterLog.length ≤ u.rxq.length + v.masterLog.length

theorem EnvStep.lineEffect_masterSel {e : EnvStep} {u : State} {b : Bool} (hb : e.asserts u.cfg = b) :
    e.LineEffect u (u.masterSel b) := by
  rw [State.masterSel, State.detect_eq]
  exact ⟨fun hp => by simp [hp], fun ha _ => hb.symm.trans ha, fun _ => rfl, le_rfl⟩

theorem EnvStep.lineEffect_masterXchg (m : Byte) (u : State) : (EnvStep.xchg m).LineEffect u (u.masterXchg m) := by
  cases hs : u.sel with
  | false =>
    rw [State.masterXchg_deasserted m hs]
    exact ⟨id, fun _ => id, fun _ => rfl, le_rfl⟩
  | true =>
    rw [State.masterXchg_asserted m hs]
    refine ⟨id, fun _ => id, fun hx => absurd (hx.symm.trans hs) nofun, ?_⟩
    dsimp only
    split <;> simp only [List.length_append, List.length_singleton] <;> omega

/-- All that a step of another agent does to them. -/
theorem envStep_lineEffect {e : EnvStep} {u v : State} (h : envStep e u = .ok v) : e.LineEffect u v := by
  cases e with
  | sel b => cases h; exact EnvStep.lineEffect_masterSel rfl
  | pin l => cases h; exact EnvStep.lineEffect_masterSel rfl
  | xchg m => cases h; exact EnvStep.lineEffect_masterXchg m u
  | txByte =>
    rcases State.engineTx_ok h with ⟨-, rfl⟩ | ⟨-, b, -, rfl⟩
    · exact ⟨id, fun _ => id, fun _ => rfl, le_rfl⟩
    · exact ⟨id, fun _ => id, fun _ => rfl, le_rfl⟩
  | rxByte =>
    rcases State.engineRx_ok h with ⟨-, rfl⟩ | ⟨-, b, rest, w, hq, hw, rfl⟩
    · exact ⟨id, fun _ => id, fun _ => rfl, le_rfl⟩
    · rw [(State.storeByte_ok hw).1]
      refine ⟨id, fun _ => id, fun _ => rfl, ?_⟩
      rw [hq, List.length_cons]
      exact Nat.add_le_add_right (Nat.le_succ _) _

/-- The premise that no exchange is taken. -/
def clocksNothing (e : EnvStep) (u : State) : Bool := !(e.isXchg && u.sel)

/-- The premise that no step asserts the line. -/
def assertsNothing (e : EnvStep) (u : State) : Bool := !e.asserts u.cfg

/-- No step of another agent takes a pending deassert away. -/
theorem keptUnder_pendD {p : EnvStep → State → Bool} (hp : ReadsNoBytes p) :
    KeptUnder p (fun s => s.pendD = true) where
  reads := hp
  step h _ ht := (envStep_lineEffect ht).pendD h
  store _ h := h

theorem keptUnder_deasserted : KeptUnder assertsNothing (fun s => s.sel = false) where
  reads := by rintro e u _ ⟨_, _, _, _, _, _, rfl, -⟩; rfl
  step h hp ht := (envStep_lineEffect ht).sel ((Bool.not_eq_true' _).mp hp) h
  store _ h := h

theorem keptUnder_masterLog (l : List Byte) : KeptUnder clocksNothing (fun s => s.masterLog = l) where
  reads := by rintro e u _ ⟨_, _, _, _, _, _, rfl, -⟩; rfl
  step h hp ht := by
    have hx := (Bool.not_eq_true' _).mp hp
    exact ((envStep_lineEffect ht).masterLog hx).trans h
  store _ h := h

/-- A premise may be exchanged for one that follows from it where `J` holds, if it keeps `J`. -/
theorem KeptUnder.stepsRespect_imp {p q : EnvStep → State → Bool} {J : State → Prop} (k : KeptUnder p J)
    (hq : ∀ {e : EnvStep} {u : State}, J u → p e u = true → q e u = true) {es : List EnvStep} {s : State}
    (hs : stepsRespect p es s = true) (hj : J s) : stepsRespect q es s = true := by
  induction es generalizing s with
  | nil => rfl
  | cons e es ih =>
    simp only [stepsRespect, Bool.and_eq_true] at hs ⊢
    obtain ⟨he, hes⟩ := hs
    refine ⟨hq hj he, ?_⟩
    split
    · next u hu =>
      rw [hu] at hes
      exact ih hes (k.step hj he hu)
    · rfl

/-! ### The receive queue gains only what the master clocks -/

/-- From `s` to `t` the receive queue gains no more bytes than the master's log. -/
def State.GainsOnlyClocked (s t : State) : Prop :=
  t.rxq.length + s.masterLog.length ≤ s.rxq.length + t.masterLog.length

theorem State.GainsOnlyClocked.of_le {s u v : State} (h : s.GainsOnlyClocked u) (hl : v.masterLog = u.masterLog)
    (hr : v.rxq.length ≤ u.rxq.length) : s.GainsOnlyClocked v := by
  unfold State.GainsOnlyClocked at *
  rw [hl]
  omega

theorem State.GainsOnlyClocked.envStep {s u v : State} (h : s.GainsOnlyClocked u) {e : EnvStep}
    (ht : Machine.envStep e u = .ok v) : s.GainsOnlyClocked v := by
  have hstep := (envStep_lineEffect ht).rxq
  unfold State.GainsOnlyClocked at *
  omega

theorem keptUnder_gainsOnlyClocked (s : State) : KeptUnder (fun _ _ => true) s.GainsOnlyClocked where
  reads _ _ _ _ := rfl
  step h _ ht := h.envStep ht
  store _ h := h

/-- Two operations drain the queue; of the others none reaches it (`State.PulsesOnly`). -/
theorem State.GainsOnlyClocked.exec {s u t : State} (h : s.GainsOnlyClocked u) {i : Instr}
    (ht : Machine.exec i u = .next t) : s.GainsOnlyClocked t := by
  by_cases hdrain : i = .drainRxq
  · subst hdrain
    rw [exec_drainRxq_next ht]
    exact h.of_le rfl (Nat.zero_le _)
  by_cases hdeassert : i = .selDeassert
  · subst hdeassert
    obtain ⟨-, rfl⟩ := exec_selDeassert_next ht
    rw [State.handleDeassert_eq]
    exact h.of_le rfl (Nat.zero_le _)
  exact (keptUnder_gainsOnlyClocked s).exec
    (fun hv hu => hu.of_le hv.masterLog (hv.rxq hdrain hdeassert ▸ le_rfl)) ht
    (stepsRespect_of_forall (fun _ _ => rfl) _ _) h

theorem State.GainsOnlyClocked.step {s t : State} (h : step s = .next t) : s.GainsOnlyClocked t := by
  have start : s.GainsOnlyClocked s := Nat.le_refl _
  rcases step_next h with ⟨u, hu, ht⟩ | ⟨e, c, he⟩ | ⟨c, rfl⟩
  · have hprepared : s.GainsOnlyClocked u := by
      obtain ⟨_, _, _, _, _, rfl⟩ := hu
      exact start
    rcases ht with rfl | ⟨i, hi⟩
    · exact hprepared
    · exact hprepared.exec hi
  · exact State.GainsOnlyClocked.envStep (u := s.begin c) start he
  · exact start

/-! ### A pending deassert -/

/-- While a deassert is pending, a master that waits takes no exchange. -/
theorem State.clocksNothing_of_masterWaited {s : State} (hd : s.pendD = true) (hw : s.masterWaited = true) :
    stepsRespect clocksNothing s.nextEnvSteps s = true :=
  (keptUnder_pendD masterWaited_readsNoBytes).stepsRespect_imp
    (fun hu hp => by simpa [clocksNothing, hu] using hp) hw hd

/-- While a deassert is pending, a master that leaves the line deasserted does not assert it. -/
theorem State.assertsNothing_of_leavesLineDeasserted {s : State} (hd : s.pendD = true)
    (hw : s.leavesLineDeasserted = true) : stepsRespect assertsNothing s.nextEnvSteps s = true :=
  (keptUnder_pendD leavesLineDeasserted_readsNoBytes).stepsRespect_imp
    (fun hu hp => by simpa [assertsNothing, hu] using hp) hw hd

/-- Settles O51: the deassert stays pending through every step of another agent, so a master that waits adds nothing to
its log, and `RXQ` gains no more than the log; a line that no step asserts stays deasserted, and then no exchange is
taken. -/
theorem waitingMasterClocksNothing : Obligations.WaitingMasterClocksNothing := by
  refine ⟨fun s t hd hw h => ?waits, fun s t hd hs hw => ?leaves⟩
  case waits =>
    have hlog : t.masterLog = s.masterLog :=
      (keptUnder_masterLog s.masterLog).machineStep (fun hv hu => hv.masterLog.trans hu) h
        (State.clocksNothing_of_masterWaited hd hw) rfl
    have hgain : t.rxq.length + s.masterLog.length ≤ s.rxq.length + t.masterLog.length :=
      State.GainsOnlyClocked.step h
    rw [hlog] at hgain
    exact ⟨hlog, Nat.le_of_add_le_add_right hgain⟩
  case leaves =>
    have hlow := State.assertsNothing_of_leavesLineDeasserted hd hw
    exact ⟨keptUnder_deasserted.stepsRespect_imp (fun hu _ => by simp [hu]) hlow hs,
      fun h => keptUnder_deasserted.machineStep (fun hv hu => hv.sel.trans hu) h hlow hs⟩

end Sys2Proof.Machine
end

section
/-! SUPPORT. The block with no turn left (`70_reset_and_hazards.md` R259, R241): a service step, else a `.body` step,
else nothing. -/

namespace Sys2Proof.Machine

theorem State.begin_of_sched_nil {s : State} (h : s.sched = []) : s.begin [] = { s with report := Report.quiet } := by
  rw [State.begin, ← h]

theorem step_idle_of_some {s : State} {e : Edge} (hs : s.sched = []) (h : s.serviceChoice = some e) :
    step s = exec e.instr { s with report := Report.quiet } := by
  have hc : State.serviceChoice { s with report := Report.quiet } = some e := h
  rw [step_idle hs, State.begin_of_sched_nil hs]
  simp only [idleTurn, hc]

theorem step_idle_of_none {s : State} (hs : s.sched = []) (h : s.serviceChoice = none) :
    step s = bodyTurn [] { s with report := Report.quiet } := by
  have hc : State.serviceChoice { s with report := Report.quiet } = none := h
  rw [step_idle hs, State.begin_of_sched_nil hs]
  simp only [idleTurn, hc]

theorem bodyTurn_held {s : State} (d : List (List EnvStep)) (hq : s.hseq = .held) (hl : s.lock = true) :
    bodyTurn d s = exec s.hcmd.op.instr { s with during := d } :=
  if_pos (by simp [State.bodyEnabled, hq, hl])

/-- Settles O9: an enabled service runs its event's handler; else the `.body` turn is taken, which runs the operation
`HCMD` names, with nothing inside its copy, or none. -/
theorem blockGoesOnByItself : Obligations.BlockGoesOnByItself := by
  intro s hs
  have body (hc : s.serviceChoice = none) (hq : s.hseq = .held) (hl : s.lock = true) :
      step s = exec s.hcmd.op.instr { s with report := Report.quiet, during := [] } :=
    (step_idle_of_none hs hc).trans (bodyTurn_held (s := { s with report := Report.quiet }) [] hq hl)
  refine ⟨step_idle_of_some hs, step_idle_of_some hs, fun hc hq hl hop => ?submit, fun hc hq hl hop => ?receive,
    fun hc hq => ?idle⟩
  case submit => rw [body hc hq hl, hop]; rfl
  case receive => rw [body hc hq hl, hop]; rfl
  case idle => exact (step_idle_of_none hs hc).trans (bodyTurn_idle (s := { s with report := Report.quiet }) [] hq)

end Sys2Proof.Machine
end

section
/-! SUPPORT. The turn `rst` (`70_reset_and_hazards.md` R240, R242). -/

namespace Sys2Proof.Machine

theorem step_rst {s : State} {rest : List Turn} (hs : s.sched = .rst :: rest) :
    step s = .next (s.begin rest).afterRst := step_turn hs

/-- Settles O58: the registers and storage are those of reset (`resetValues`), and `State.afterRst` carries the
environment, the parameters and the schedule over. -/
theorem rstClearsTheBlockOnly : Obligations.RstClearsTheBlockOnly := by
  intro s rest hs
  obtain ⟨inited, lock, linkPhase, pendA, pendD, syncFault, hseq, outCursor, outCount, inCursor, inCount, rxTrigEn,
    txTrigEn, mem, -⟩ := resetValues s.cfg
  exact ⟨_, step_rst hs, inited, lock, linkPhase, pendA, pendD, syncFault, hseq, outCursor, outCount, inCursor,
    inCount, rxTrigEn, txTrigEn, mem, rfl, rfl, rfl, rfl, rfl, rfl, rfl, rfl⟩

end Sys2Proof.Machine
end
